-- ==== Sys2Proof/Word.lean ====
section
/-! DEFINITION. The word types of the block (spec R14): bytes, 16-bit registers, 64-bit signed
values, and the nibbles of a TL byte. -/

namespace Sys2Proof

/-- `u8` of R14: one byte of a wire or of a buffer. -/
abbrev Byte := BitVec 8

/-- `u16` of R14: a register of the register file, a CRC register. -/
abbrev Word16 := BitVec 16

/-- `i64` of R14: a 64-bit two's-complement value (its number is `toInt`). -/
abbrev I64 := BitVec 64

/-- The high or low nibble of a TL byte (R14, R102). -/
abbrev Nibble := BitVec 4

end Sys2Proof
end

