-- ==== Sys2Proof/Machine/Bits.lean ====
section
/-! DEFINITION. Bit fields and byte order (spec R14, R73, R74, R75, R102): the nibbles of a TL byte,
the two bytes of a 16-bit word, and the number a list of big-endian bytes spells. -/

namespace Sys2Proof.Machine

/-- The type tag of a TL byte, its bits 7:4 (R102). -/
def tlTag (b : Byte) : Nibble := b.extractLsb' 4 4

/-- The count or length field of a TL byte, its bits 3:0 (R102). -/
def tlCount (b : Byte) : Nibble := b.extractLsb' 0 4

/-- The TL byte with type tag `tag` and count field `n` (R102). -/
def tlByte (tag n : Nibble) : Byte := tag ++ n

/-- Bits 7:0 of a word (R14, R74). -/
def loByte (w : Word16) : Byte := w.extractLsb' 0 8

/-- Bits 15:8 of a word (R14, R74). -/
def hiByte (w : Word16) : Byte := w.extractLsb' 8 8

/-- The two bytes of a register on the fieldbus, high byte first (R73). -/
def wordBytes (w : Word16) : List Byte := [hiByte w, loByte w]

/-- The number that the bytes spell, most significant byte first (R75). -/
def beNat (p : List Byte) : Nat := p.foldl (fun v b => v * 256 + b.toNat) 0

end Sys2Proof.Machine
end

