-- ==== Sys2Proof/Config.lean ====
section
/-! DEFINITION. The configuration of the block (spec R9, R10, R11, R140): the parameters whose value
the source fixes, as constants, and the parameters a model takes as an argument, as the record `Cfg`.
No behaviour of this hardware is left without a value by its spec, so there is no free value here
(assumption log entry 12). -/

namespace Sys2Proof

/-! ### Parameters the source fixes (R9, status *source*; log entry 2) -/

/-- `ESC_RUN` (R9): the escapes of an escape run. -/
def escRun : Nat := 4

/-- `BEGIN_BYTE` (R9): the byte of the begin marker. -/
def beginByte : Byte := 0x01

/-- `BEGIN_RUN` (R9): the bytes of the begin marker. -/
def beginRun : Nat := 4

/-- `END_BYTE` (R9): the end marker. -/
def endByte : Byte := 0x1A

/-- `CODE_LEN` (R9): the bytes of a domain code. -/
def codeLen : Nat := 5

/-- `CODE_SUFFIX` (R9): the byte after a domain code on the wire. -/
def codeSuffix : Byte := 0xFF

/-- `FRAME_BUF` (R9): the capacity of the Slave's frame buffer. -/
def frameBuf : Nat := 7

/-- `FUNC_RD` (R9): the one function code, "read input registers". -/
def funcRd : Byte := 0x04

/-- `EXC_ILLEGAL_FUNCTION` (R9, R115). -/
def excIllegalFunction : Byte := 0x01

/-- `EXC_ILLEGAL_DATA_ADDRESS` (R9, R115). -/
def excIllegalDataAddress : Byte := 0x02

/-- A CRC configuration (R140). -/
structure CrcCfg where
  seed : Word16
  poly : Word16
  xorout : Word16
deriving DecidableEq, Repr

/-- The two fixed configurations of the CRC-16 Engine (R140): `A` is the fieldbus checksum, `B` the
telemetry checksum. -/
inductive CrcVariant where
  | A
  | B
deriving DecidableEq, Repr

/-- The constants of each variant, the normative table of R140. -/
def CrcVariant.cfg : CrcVariant → CrcCfg
  | .A => { seed := 0xFFFF, poly := 0xA001, xorout := 0x0000 }
  | .B => { seed := 0xFFFF, poly := 0x8408, xorout := 0xFFFF }

/-! ### Parameters a model takes as an argument -/

/-- The configuration record of R9, fixed before the first event (R13, R335). It holds every
parameter that R9 leaves OPEN, derives or decides, and those whose source value R10 or a rule lets
vary (`MAX_DEPTH`, `ELEM_BUF`, `P_PERSIST`). `N_CODES` is the length of `codeTable`. -/
structure Cfg where
  /-- `ESC_BYTE`. -/
  escByte : Byte
  /-- `MAX_DEPTH`: the most nesting levels that may be open. -/
  maxDepth : Nat
  /-- `ELEM_BUF`: the capacity of the element buffer. -/
  elemBuf : Nat
  /-- `TL_LEN_BIAS`, 0 or 1 (R104). -/
  tlLenBias : Nat
  /-- `P_PERSIST`: the number of persistent code pairs (R168). -/
  pPersist : Nat
  /-- `CODE_TABLE`: the recognized domain codes, pair 0 first (R162). -/
  codeTable : List (List Byte)
  /-- `VERSION_HI`: register 0 (R35). -/
  versionHi : Word16
  /-- `VERSION_LO`: register 1 (R35). -/
  versionLo : Word16
  /-- `CODE_DEPTH`: the tracked nesting depth (R225). -/
  codeDepth : Nat
  /-- `CODE_POS`: the tracked position of a domain code (R226). -/
  codePos : Nat
  /-- `SCALE_POS`: the tracked position of a scaler (R227). -/
  scalePos : Nat
  /-- `VALUE_POS`: the tracked position of a value (R228). -/
  valuePos : Nat
  /-- `DEV_ADDR`: the device address (R261). -/
  devAddr : Byte
  /-- `PARAM_HI`: the expected high byte of a start address (R268). -/
  paramHi : Byte
  /-- `T_SILENT`: the silent interval, in ticks (R273). -/
  tSilent : Nat
deriving DecidableEq, Repr

/-- `N_CODES` (R9): one entry of the code table per code pair. -/
def Cfg.nCodes (c : Cfg) : Nat := c.codeTable.length

/-- `NREG = 2 + 2·N_CODES` (R11, R33). -/
def Cfg.nReg (c : Cfg) : Nat := 2 + 2 * c.nCodes

/-- A well-formed configuration (R10), together with the types R9 gives two parameters: a code has
`CODE_LEN` bytes, and `TL_LEN_BIAS` is 0 or 1. A model refuses any other (R10, U2). -/
def Cfg.wf (c : Cfg) : Bool :=
  decide (1 ≤ c.nCodes ∧ c.nCodes ≤ 62 ∧ c.pPersist ≤ c.nCodes ∧
    1 ≤ c.codeDepth ∧ c.codeDepth ≤ c.maxDepth ∧
    c.codePos ≤ 14 ∧ c.scalePos ≤ 14 ∧ c.valuePos ≤ 14 ∧ c.scalePos ≠ c.valuePos ∧
    1 ≤ c.tSilent ∧
    c.escByte ≠ 0x00 ∧ c.escByte ≠ beginByte ∧ c.escByte ≠ endByte ∧
    (∀ e ∈ c.codeTable, e.length = codeLen) ∧ c.tlLenBias ≤ 1)

/-- The default configuration of R9 (the values the spec's test vectors use; log entry 1). -/
def Cfg.default : Cfg where
  escByte := 0x1B
  maxDepth := 9
  elemBuf := 16
  tlLenBias := 0
  pPersist := 2
  codeTable := [[0x01, 0x00, 0x01, 0x08, 0x00], [0x01, 0x00, 0x02, 0x08, 0x00],
    [0x01, 0x00, 0x10, 0x07, 0x00]]
  versionHi := 0x0001
  versionLo := 0x0002
  codeDepth := 5
  codePos := 0
  scalePos := 4
  valuePos := 5
  devAddr := 0x09
  paramHi := 0x01
  tSilent := 4

end Sys2Proof
end

