-- ==== Sys2Proof/Syntax.lean ====
section
/-! DEFINITION. The instructions of the block (spec R110, R118, R123): one constructor of `Instr` per
row of spec/opcode_table.json, the decoder and Slave states a row applies in, and the events the
environment delivers (R12, R100, R119, R120). -/

namespace Sys2Proof

/-- The rows of the opcode table. A byte row whose byte is fixed, or is a parameter of the
configuration, has no operand; the other rows carry the fields the table gives them. `quiet` is the
flag that comes with a fieldbus byte (R260). -/
inductive Instr where
  /-- SEEK_ESC.ESC (R203). -/
  | seekEscEsc
  /-- SEEK_ESC.OTHER (R203). -/
  | seekEscOther (b : Byte)
  /-- SEEK_TYPE.BEGIN (R204). -/
  | seekTypeBegin
  /-- SEEK_TYPE.END (R208). -/
  | seekTypeEnd
  /-- SEEK_TYPE.ESCESC (R207). -/
  | seekTypeEscEsc
  /-- SEEK_TYPE.OTHER (R204). -/
  | seekTypeOther (b : Byte)
  /-- SEEK_TYPE.BEGIN_N (R205). -/
  | seekTypeBeginN
  /-- SEEK_TYPE.OTHER_N (R205). -/
  | seekTypeOtherN (b : Byte)
  /-- END_FILL.FILL (R209). -/
  | endFillFill (fill : Byte)
  /-- TRAILER.CRC_LO (R210). -/
  | trailerCrcLo (lo : Byte)
  /-- TRAILER.CRC_HI (R211). -/
  | trailerCrcHi (hi : Byte)
  /-- IN_MSG.ESC (R213). -/
  | inMsgEsc
  /-- IN_MSG.ZERO (R214). -/
  | inMsgZero
  /-- IN_MSG.LIST_CLOSE (R216). -/
  | inMsgListClose
  /-- IN_MSG.LIST_PUSH (R215). -/
  | inMsgListPush (n : Nibble)
  /-- IN_MSG.BOOL_EMPTY (R219). -/
  | inMsgBoolEmpty
  /-- IN_MSG.INT_EMPTY (R219). -/
  | inMsgIntEmpty
  /-- IN_MSG.UINT_EMPTY (R219). -/
  | inMsgUintEmpty
  /-- IN_MSG.OCTET (R219, R220). -/
  | inMsgOctet (n : Nibble)
  /-- IN_MSG.BOOL (R219, R220). -/
  | inMsgBool (n : Nibble)
  /-- IN_MSG.INT (R219, R220). -/
  | inMsgInt (n : Nibble)
  /-- IN_MSG.UINT (R219, R220). -/
  | inMsgUint (n : Nibble)
  /-- IN_MSG.ILLEGAL (R222). -/
  | inMsgIllegal (b : Byte)
  /-- ACCUM.DATA (R223). -/
  | accumData (p : Byte)
  /-- IDLE.ADDR (R261). -/
  | idleAddr
  /-- IDLE.OTHER (R261). -/
  | idleOther (b : Byte) (quiet : Bool)
  /-- ADDR_MATCHED.FUNC (R262). -/
  | addrMatchedFunc (quiet : Bool)
  /-- ADDR_MATCHED.OTHER (R262). -/
  | addrMatchedOther (b : Byte) (quiet : Bool)
  /-- COLLECTING.DATA (R263). -/
  | collectingData (b : Byte) (quiet : Bool)
  /-- REQ.READ_INPUT_REGISTERS (R111, R268): a whole request frame; `addr` and `func` are fixed. -/
  | reqReadInputRegisters (paramHi start countHi count crcLo crcHi : Byte)
  /-- RESP.READ_INPUT_REGISTERS (R113, R269): the normal response for `count` registers from `start`. -/
  | respReadInputRegisters (start count : Byte)
  /-- RESP.EXC_ILLEGAL_FUNCTION (R114, R267). -/
  | respExcIllegalFunction (func : Byte)
  /-- RESP.EXC_ILLEGAL_DATA_ADDRESS (R114, R271). -/
  | respExcIllegalDataAddress
  /-- CRC.reset (R141). -/
  | crcReset (v : CrcVariant)
  /-- CRC.feed (R142). -/
  | crcFeed (v : CrcVariant) (b : Byte)
  /-- CRC.lowByte (R143). -/
  | crcLowByte (v : CrcVariant)
  /-- CRC.highByte (R144). -/
  | crcHighByte (v : CrcVariant)
  /-- Store.reset (R161). -/
  | storeReset
  /-- Store.presentCode (R162). -/
  | storePresentCode (p : List Byte)
  /-- Store.presentValue (R164). -/
  | storePresentValue (v : I64)
  /-- Store.commit (R167). -/
  | storeCommit
  /-- Store.registerCount (R169). -/
  | storeRegisterCount
  /-- Store.readRegister (R170). -/
  | storeReadRegister (i : Nat)
  /-- Decoder.feed (R200). -/
  | decoderFeed (b : Byte)
  /-- Slave.onByte (R260). -/
  | slaveOnByte (b : Byte) (quiet : Bool)
  /-- Timer.tick (R273). -/
  | timerTick
  /-- Timer.rx (R274). -/
  | timerRx (b : Byte)
deriving DecidableEq, Repr

/-- The decoder states the telemetry rows of R110 distinguish: `SEEK_TYPE` with j = 0 and with
j ≥ 1, and `TRAILER` with t = 0 and with t = 1, are rows of their own. -/
inductive TeleCtx where
  | seekEsc
  | seekTypeFirst
  | seekTypeRest
  | endFill
  | trailerFirst
  | trailerSecond
  | inMsg
  | accum
deriving DecidableEq, Repr

/-- The Slave's control states (R43). -/
inductive SlvState where
  | idle
  | addrMatched
  | collecting
deriving DecidableEq, Repr

/-- What the decoding of a byte depends on besides the byte (R110, R123): the control states of the
two engines, which take the place of a program counter (R31). -/
structure Ctx where
  tele : TeleCtx
  bus : SlvState
deriving DecidableEq, Repr

/-- The `state` column of the opcode table (R123). -/
inductive RowState where
  | tele (t : TeleCtx)
  | bus (b : SlvState)
  /-- A whole request frame, which passes through every Slave state (log entry 6). -/
  | frame
  /-- An interface operation, state "any", or a response the Slave emits, state "output". -/
  | operation
deriving DecidableEq, Repr

/-- A call of an interface operation (R118), or of the emission of a response frame (log entry 6): the
operations that no byte of a stream encodes. -/
inductive Call where
  | respReadInputRegisters (start count : Byte)
  | respExcIllegalFunction (func : Byte)
  | respExcIllegalDataAddress
  | crcReset (v : CrcVariant)
  | crcFeed (v : CrcVariant) (b : Byte)
  | crcLowByte (v : CrcVariant)
  | crcHighByte (v : CrcVariant)
  | storeReset
  | storePresentCode (p : List Byte)
  | storePresentValue (v : I64)
  | storeCommit
  | storeRegisterCount
  | storeReadRegister (i : Nat)
  | decoderFeed (b : Byte)
  | slaveOnByte (b : Byte) (quiet : Bool)
  | timerTick
  | timerRx (b : Byte)
deriving DecidableEq, Repr

/-- The row of the opcode table that a call runs (R118, R123). -/
def Call.instr : Call → Instr
  | .respReadInputRegisters start count => .respReadInputRegisters start count
  | .respExcIllegalFunction func => .respExcIllegalFunction func
  | .respExcIllegalDataAddress => .respExcIllegalDataAddress
  | .crcReset v => .crcReset v
  | .crcFeed v b => .crcFeed v b
  | .crcLowByte v => .crcLowByte v
  | .crcHighByte v => .crcHighByte v
  | .storeReset => .storeReset
  | .storePresentCode p => .storePresentCode p
  | .storePresentValue v => .storePresentValue v
  | .storeCommit => .storeCommit
  | .storeRegisterCount => .storeRegisterCount
  | .storeReadRegister i => .storeReadRegister i
  | .decoderFeed b => .decoderFeed b
  | .slaveOnByte b quiet => .slaveOnByte b quiet
  | .timerTick => .timerTick
  | .timerRx b => .timerRx b

/-- An event the environment delivers (R12, R100, R120): the block's encoded surfaces. -/
inductive Event where
  /-- `T b`: one byte of the telemetry stream (R100, surface 1). -/
  | telemetry (b : Byte)
  /-- `F b`, or `Fq b` when `quiet`: one byte of the fieldbus (R100, surface 2). -/
  | fieldbus (b : Byte) (quiet : Bool)
  /-- A whole frame on the fieldbus, the pseudo-event `F.REQ` of R121: its first byte quiet, the others
  not. -/
  | frame (bytes : List Byte)
  /-- A call of an interface operation, which has operands but no bit encoding (R100, surface 3; R118);
  `TICK` and `RX b` are calls of `Timer.tick` and `Timer.rx`. -/
  | call (op : Call)
deriving DecidableEq, Repr

/-- The row of the table that applies to an instruction: its `state` column (R123). -/
def Instr.rowState : Instr → RowState
  | .seekEscEsc => .tele .seekEsc
  | .seekEscOther _ => .tele .seekEsc
  | .seekTypeBegin => .tele .seekTypeFirst
  | .seekTypeEnd => .tele .seekTypeFirst
  | .seekTypeEscEsc => .tele .seekTypeFirst
  | .seekTypeOther _ => .tele .seekTypeFirst
  | .seekTypeBeginN => .tele .seekTypeRest
  | .seekTypeOtherN _ => .tele .seekTypeRest
  | .endFillFill _ => .tele .endFill
  | .trailerCrcLo _ => .tele .trailerFirst
  | .trailerCrcHi _ => .tele .trailerSecond
  | .inMsgEsc => .tele .inMsg
  | .inMsgZero => .tele .inMsg
  | .inMsgListClose => .tele .inMsg
  | .inMsgListPush _ => .tele .inMsg
  | .inMsgBoolEmpty => .tele .inMsg
  | .inMsgIntEmpty => .tele .inMsg
  | .inMsgUintEmpty => .tele .inMsg
  | .inMsgOctet _ => .tele .inMsg
  | .inMsgBool _ => .tele .inMsg
  | .inMsgInt _ => .tele .inMsg
  | .inMsgUint _ => .tele .inMsg
  | .inMsgIllegal _ => .tele .inMsg
  | .accumData _ => .tele .accum
  | .idleAddr => .bus .idle
  | .idleOther _ _ => .bus .idle
  | .addrMatchedFunc _ => .bus .addrMatched
  | .addrMatchedOther _ _ => .bus .addrMatched
  | .collectingData _ _ => .bus .collecting
  | .reqReadInputRegisters _ _ _ _ _ _ => .frame
  | .respReadInputRegisters _ _ => .operation
  | .respExcIllegalFunction _ => .operation
  | .respExcIllegalDataAddress => .operation
  | .crcReset _ => .operation
  | .crcFeed _ _ => .operation
  | .crcLowByte _ => .operation
  | .crcHighByte _ => .operation
  | .storeReset => .operation
  | .storePresentCode _ => .operation
  | .storePresentValue _ => .operation
  | .storeCommit => .operation
  | .storeRegisterCount => .operation
  | .storeReadRegister _ => .operation
  | .decoderFeed _ => .operation
  | .slaveOnByte _ _ => .operation
  | .timerTick => .operation
  | .timerRx _ => .operation

/-- The context agrees with a row's `state` column (R123: "and the state agrees"). -/
def Ctx.agrees (x : Ctx) : RowState → Bool
  | .tele t => x.tele == t
  | .bus b => x.bus == b
  | .frame => true
  | .operation => true

end Sys2Proof
end

