-- ==== Sys2Proof/WellFormed.lean ====
section
/-! DEFINITION. Well-formed instructions (spec R110, R118, R123): the operands a row admits, so that
its byte is not taken by a row tried before it. -/

namespace Sys2Proof

open Sys2Proof.Machine

/-- The type tags that no element has (R103, R222): 0x1, 0x2, 0x3 and 0x8 to 0xF. -/
def illegalTag (t : Nibble) : Bool :=
  t != 0x0 && t != 0x4 && t != 0x5 && t != 0x6 && t != 0x7

/-- The operands the row of `i` admits under configuration `c` (R110: "the first class that matches
decides"; R118 for the operand ranges of the interface operations). -/
def Instr.wellFormed (c : Cfg) : Instr → Bool
  | .seekEscEsc => true
  | .seekEscOther b => b != c.escByte
  | .seekTypeBegin => true
  | .seekTypeEnd => true
  | .seekTypeEscEsc => true
  | .seekTypeOther b => b != beginByte && b != endByte && b != c.escByte
  | .seekTypeBeginN => true
  | .seekTypeOtherN b => b != beginByte
  | .endFillFill _ => true
  | .trailerCrcLo _ => true
  | .trailerCrcHi _ => true
  | .inMsgEsc => true
  | .inMsgZero => true
  | .inMsgListClose => tlByte 0x7 0 != c.escByte
  | .inMsgListPush n => n != 0 && tlByte 0x7 n != c.escByte
  | .inMsgBoolEmpty => tlByte 0x4 0 != c.escByte
  | .inMsgIntEmpty => tlByte 0x5 0 != c.escByte
  | .inMsgUintEmpty => tlByte 0x6 0 != c.escByte
  | .inMsgOctet n => n != 0 && tlByte 0x0 n != c.escByte
  | .inMsgBool n => n != 0 && tlByte 0x4 n != c.escByte
  | .inMsgInt n => n != 0 && tlByte 0x5 n != c.escByte
  | .inMsgUint n => n != 0 && tlByte 0x6 n != c.escByte
  | .inMsgIllegal b => illegalTag (tlTag b) && b != c.escByte
  | .accumData _ => true
  | .idleAddr => true
  | .idleOther b quiet => !(quiet && b == c.devAddr)
  | .addrMatchedFunc _ => true
  | .addrMatchedOther b _ => b != funcRd
  | .collectingData _ _ => true
  | .reqReadInputRegisters _ _ _ _ _ _ => true
  | .respReadInputRegisters _ _ => true
  | .respExcIllegalFunction _ => true
  | .respExcIllegalDataAddress => true
  | .crcReset _ => true
  | .crcFeed _ _ => true
  | .crcLowByte _ => true
  | .crcHighByte _ => true
  | .storeReset => true
  | .storePresentCode p => decide (p.length ≤ 15)
  | .storePresentValue _ => true
  | .storeCommit => true
  | .storeRegisterCount => true
  | .storeReadRegister _ => true
  | .decoderFeed _ => true
  | .slaveOnByte _ _ => true
  | .timerTick => true
  | .timerRx _ => true

end Sys2Proof
end

