-- ==== Sys2Proof/Decode.lean ====
section
/-! DEFINITION. The decoder and the encoder (spec R101 to R106, R110, R111, R117, R121, R123): which row
of the opcode table an event selects in a context, and the event a well-formed instruction is
delivered as. The decoder is total on any byte in any state (R110); only a frame that is no request
selects no one row, and is rejected by name. -/

namespace Sys2Proof

open Sys2Proof.Machine

/-- Why an event selects no one row. The step runs such an event all the same, byte by byte
(log entry 9). -/
inductive DecodeError where
  /-- A frame that is no request of R111 for this device: other length, other address or other function
  code. Its bytes select byte rows, one after another. -/
  | notARequest (bytes : List Byte)
deriving DecidableEq, Repr

/-- A byte in SEEK_TYPE with j = 0 (R110, R204). -/
def decodeSeekTypeFirst (c : Cfg) (b : Byte) : Instr :=
  if b = beginByte then .seekTypeBegin
  else if b = endByte then .seekTypeEnd
  else if b = c.escByte then .seekTypeEscEsc
  else .seekTypeOther b

/-- A byte at a structural position (R106, R110, R212): the two whole-byte tests first, then the
nibbles. -/
def decodeInMsg (c : Cfg) (b : Byte) : Instr :=
  if b = c.escByte then .inMsgEsc
  else if b = 0x00 then .inMsgZero
  else if b = 0x70 then .inMsgListClose
  else if tlTag b = 0x7 then .inMsgListPush (tlCount b)
  else if b = 0x40 then .inMsgBoolEmpty
  else if b = 0x50 then .inMsgIntEmpty
  else if b = 0x60 then .inMsgUintEmpty
  else if tlTag b = 0x0 then .inMsgOctet (tlCount b)
  else if tlTag b = 0x4 then .inMsgBool (tlCount b)
  else if tlTag b = 0x5 then .inMsgInt (tlCount b)
  else if tlTag b = 0x6 then .inMsgUint (tlCount b)
  else .inMsgIllegal b

/-- The row a telemetry byte selects (R110). -/
def decodeTelemetry (c : Cfg) (t : TeleCtx) (b : Byte) : Instr :=
  match t with
  | .seekEsc => if b = c.escByte then .seekEscEsc else .seekEscOther b
  | .seekTypeFirst => decodeSeekTypeFirst c b
  | .seekTypeRest => if b = beginByte then .seekTypeBeginN else .seekTypeOtherN b
  | .endFill => .endFillFill b
  | .trailerFirst => .trailerCrcLo b
  | .trailerSecond => .trailerCrcHi b
  | .inMsg => decodeInMsg c b
  | .accum => .accumData b

/-- The row a fieldbus byte selects (R123, R261, R262, R263). -/
def decodeFieldbus (c : Cfg) (x : SlvState) (b : Byte) (quiet : Bool) : Instr :=
  match x with
  | .idle => if quiet = true ∧ b = c.devAddr then .idleAddr else .idleOther b quiet
  | .addrMatched => if b = funcRd then .addrMatchedFunc quiet else .addrMatchedOther b quiet
  | .collecting => .collectingData b quiet

/-- The row a whole frame selects: a request of R111 for this device, matched on its byte 1 (R123). -/
def decodeFrame (c : Cfg) (bytes : List Byte) : Except DecodeError Instr :=
  match bytes with
  | [addr, func, p2, p3, p4, p5, lo, hi] =>
    if addr = c.devAddr ∧ func = funcRd then .ok (.reqReadInputRegisters p2 p3 p4 p5 lo hi)
    else .error (.notARequest bytes)
  | _ => .error (.notARequest bytes)

/-- The decoder: the row of the opcode table that event `e` selects in context `x`. -/
def decode (c : Cfg) (x : Ctx) (e : Event) : Except DecodeError Instr :=
  match e with
  | .telemetry b => .ok (decodeTelemetry c x.tele b)
  | .fieldbus b quiet => .ok (decodeFieldbus c x.bus b quiet)
  | .frame bytes => decodeFrame c bytes
  | .call op => .ok op.instr

/-- The encoder: the event that delivers a well-formed instruction, its bytes from the encoding
tables R102, R110, R111 and, for a parameter-valued byte, from the configuration. -/
def encode (c : Cfg) (i : Instr) : Event :=
  match i with
  | .seekEscEsc => .telemetry c.escByte
  | .seekEscOther b => .telemetry b
  | .seekTypeBegin => .telemetry beginByte
  | .seekTypeEnd => .telemetry endByte
  | .seekTypeEscEsc => .telemetry c.escByte
  | .seekTypeOther b => .telemetry b
  | .seekTypeBeginN => .telemetry beginByte
  | .seekTypeOtherN b => .telemetry b
  | .endFillFill fill => .telemetry fill
  | .trailerCrcLo lo => .telemetry lo
  | .trailerCrcHi hi => .telemetry hi
  | .inMsgEsc => .telemetry c.escByte
  | .inMsgZero => .telemetry 0x00
  | .inMsgListClose => .telemetry (tlByte 0x7 0)
  | .inMsgListPush n => .telemetry (tlByte 0x7 n)
  | .inMsgBoolEmpty => .telemetry (tlByte 0x4 0)
  | .inMsgIntEmpty => .telemetry (tlByte 0x5 0)
  | .inMsgUintEmpty => .telemetry (tlByte 0x6 0)
  | .inMsgOctet n => .telemetry (tlByte 0x0 n)
  | .inMsgBool n => .telemetry (tlByte 0x4 n)
  | .inMsgInt n => .telemetry (tlByte 0x5 n)
  | .inMsgUint n => .telemetry (tlByte 0x6 n)
  | .inMsgIllegal b => .telemetry b
  | .accumData p => .telemetry p
  | .idleAddr => .fieldbus c.devAddr true
  | .idleOther b quiet => .fieldbus b quiet
  | .addrMatchedFunc quiet => .fieldbus funcRd quiet
  | .addrMatchedOther b quiet => .fieldbus b quiet
  | .collectingData b quiet => .fieldbus b quiet
  | .reqReadInputRegisters p2 p3 p4 p5 lo hi => .frame [c.devAddr, funcRd, p2, p3, p4, p5, lo, hi]
  | .respReadInputRegisters start count => .call (.respReadInputRegisters start count)
  | .respExcIllegalFunction func => .call (.respExcIllegalFunction func)
  | .respExcIllegalDataAddress => .call .respExcIllegalDataAddress
  | .crcReset v => .call (.crcReset v)
  | .crcFeed v b => .call (.crcFeed v b)
  | .crcLowByte v => .call (.crcLowByte v)
  | .crcHighByte v => .call (.crcHighByte v)
  | .storeReset => .call .storeReset
  | .storePresentCode p => .call (.storePresentCode p)
  | .storePresentValue v => .call (.storePresentValue v)
  | .storeCommit => .call .storeCommit
  | .storeRegisterCount => .call .storeRegisterCount
  | .storeReadRegister r => .call (.storeReadRegister r)
  | .decoderFeed b => .call (.decoderFeed b)
  | .slaveOnByte b quiet => .call (.slaveOnByte b quiet)
  | .timerTick => .call .timerTick
  | .timerRx b => .call (.timerRx b)

/-- The events that the environment may deliver from outside (R119, R339): `Decoder.feed` (a telemetry
byte, or the call), `Slave.onByte` (a fieldbus byte, or the call), `tick` and `rx`. -/
def Event.fromEnvironment : Event → Bool
  | .telemetry _ => true
  | .fieldbus _ _ => true
  | .call (.decoderFeed _) => true
  | .call (.slaveOnByte _ _) => true
  | .call .timerTick => true
  | .call (.timerRx _) => true
  | .call _ => false
  | .frame _ => false

/-- How a receiver tells the length of a response frame (R117): 5 bytes when bit 7 of byte 1 is set,
else 5 + byteCount; `none` before byte 2 has arrived. -/
def responseLength : List Byte → Option Nat
  | _ :: func :: third :: _ => if func.getLsbD 7 then some 5 else some (5 + third.toNat)
  | _ => none

/-! ### A bare word of the opcode table (log entry 4)

The table's byte rows say nothing of the state in their bits, so a bare byte is put in the state of
the row that fixes the most of it: the first row, in file order, that fixes all eight bits to this
byte, else the first that fixes its high nibble, else SEEK_ESC, the state after reset. -/

/-- The byte rows of the opcode table that fix bits, as (state, mask, match), in file order, those
of mask 0xFF before those of mask 0xF0; parameter-valued bytes at their defaults (R123). -/
def tableRows : List (RowState × Byte × Byte) :=
  [(.tele .seekEsc, 0xFF, 0x1B), (.tele .seekTypeFirst, 0xFF, 0x01),
   (.tele .seekTypeFirst, 0xFF, 0x1A), (.tele .seekTypeFirst, 0xFF, 0x1B),
   (.tele .seekTypeRest, 0xFF, 0x01), (.tele .inMsg, 0xFF, 0x1B), (.tele .inMsg, 0xFF, 0x00),
   (.tele .inMsg, 0xFF, 0x70), (.tele .inMsg, 0xFF, 0x40), (.tele .inMsg, 0xFF, 0x50),
   (.tele .inMsg, 0xFF, 0x60), (.bus .idle, 0xFF, 0x09), (.bus .addrMatched, 0xFF, 0x04)] ++
  [(.tele .inMsg, 0xF0, 0x70), (.tele .inMsg, 0xF0, 0x00), (.tele .inMsg, 0xF0, 0x40),
   (.tele .inMsg, 0xF0, 0x50), (.tele .inMsg, 0xF0, 0x60)]

/-- The state a bare byte is put in. -/
def tableState (b : Byte) : RowState :=
  match tableRows.find? (fun r => b &&& r.2.1 == r.2.2) with
  | some r => r.1
  | none => .tele .seekEsc

/-- The event that delivers a bare byte in the state `tableState` gives; an address byte arrives
quiet (R261). -/
def tableEvent (nbits w : Nat) : Option Event :=
  if nbits = 8 then
    let b : Byte := BitVec.ofNat 8 w
    match tableState b with
    | .bus .idle => some (.fieldbus b true)
    | .bus _ => some (.fieldbus b false)
    | _ => some (.telemetry b)
  else if nbits = 64 then
    some (.frame ((List.range 8).map (fun k => BitVec.ofNat 8 (w >>> (8 * k)))))
  else none

/-- The context `x` with the control state of `r` in place of its own. -/
def Ctx.withRowState (x : Ctx) : RowState → Ctx
  | .tele t => { x with tele := t }
  | .bus b => { x with bus := b }
  | .frame => x
  | .operation => x

/-- The state that the word of a table row is put in: for a whole frame, none in particular. -/
def tableRowState (nbits w : Nat) : RowState :=
  if nbits = 8 then tableState (BitVec.ofNat 8 w) else .frame

/-- The instruction the decoder reads from a bare word of the opcode table, under the default
configuration: a byte (8 bits), or a request frame (64 bits, byte 0 of the frame least
significant). -/
def decodeTableWord (nbits w : Nat) : Option Instr :=
  match tableEvent nbits w with
  | none => none
  | some e =>
    match decode Cfg.default ((Ctx.mk .seekEsc .idle).withRowState (tableRowState nbits w)) e with
    | .ok i => some i
    | .error _ => none

end Sys2Proof
end

