-- ==== Sys2Proof/Machine/State.lean ====
section
/-! DEFINITION. The state of the block (spec R30 to R48), the reasons a step can stop, and the
power-on state. Plain data: every field is a number, a bit vector, a name or a list. -/

namespace Sys2Proof.Machine

/-- The decoder's control state (R38). -/
inductive DecState where
  | seekEsc
  | seekType
  | inMsg
  | accum
  | endFill
  | trailer
deriving DecidableEq, Repr

/-- The type tags an element in assembly can have (R40, R103): OctetString 0x0, Boolean 0x4,
Integer 0x5, Unsigned 0x6. -/
inductive Tag where
  | octet
  | bool
  | int
  | uint
deriving DecidableEq, Repr

/-- One open list (R39): its expected child count and the children completed so far. -/
structure Level where
  exp : Nat
  rd : Nat
deriving DecidableEq, Repr

/-- The Register Store (R34, R36, R37). Registers 0 and 1 are the version words of the
configuration (R35). -/
structure Store where
  /-- `store.live[0 .. 2·N_CODES−1]` (R34). -/
  live : List Word16
  /-- `store.staged[0 .. 2·N_CODES−1]` (R36). -/
  staged : List Word16
  /-- `store.sset[0 .. N_CODES−1]` (R36). -/
  sset : List Bool
  /-- `store.det`, the detected domain code (R37). -/
  det : Option Nat
deriving DecidableEq, Repr

/-- The Telemetry Decoder's working state (R38 to R42). -/
structure Dec where
  state : DecState
  /-- Escapes seen in SEEK_ESC. -/
  k : Nat
  /-- Begin-marker bytes seen in SEEK_TYPE. -/
  j : Nat
  /-- Trailer bytes seen in TRAILER. -/
  t : Nat
  /-- The nesting stack `dec.lv`, innermost level first, so its head is `dec.lv[dec.d]`; the depth
  `dec.d` is its length (R39). -/
  lv : List Level
  /-- Type tag of the element in assembly (R40). -/
  tag : Tag
  /-- Payload bytes still to come (R40). -/
  rem : Nat
  /-- Payload bytes collected so far (R40). -/
  buf : List Byte
  /-- The scale factor, a signed 8-bit number (R41). -/
  scale : BitVec 8
  /-- The checksum snapshot (R42). -/
  snap : Word16
  /-- The first trailer byte (R42). -/
  tlo : Byte
deriving DecidableEq, Repr

/-- `dec.d` (R39). -/
def Dec.d (d : Dec) : Nat := d.lv.length

/-- The Fieldbus Slave's working state (R43). -/
structure Slave where
  state : SlvState
  /-- `slv.buf[0 .. FRAME_BUF−1]`. -/
  buf : List Byte
  /-- The bytes in it. -/
  n : Nat
deriving DecidableEq, Repr

/-- The silence timer (R44). -/
structure Timer where
  /-- Ticks since the last fieldbus byte, saturating at T_SILENT. -/
  elapsed : Nat
deriving DecidableEq, Repr

/-- One output event of the Slave (R45): a byte, or the marker of the silent gap (R275). -/
inductive TxEvent where
  | byte (b : Byte)
  | gap
deriving DecidableEq, Repr

/-- What an interface operation returned (R118): `lowByte`, `highByte` and `registerCount` a byte,
`readRegister` a word. -/
inductive RetVal where
  | u8 (b : Byte)
  | u16 (w : Word16)
deriving DecidableEq, Repr

/-- The state of the block: the record of R30, with the configuration it is a function of (R9; no
step changes it, R13) and two fields of the model's own, the events the environment has yet to
deliver and the value the last interface operation returned (log entries 1, 3, 7). -/
structure State where
  cfg : Cfg
  /-- The Variant B CRC register, the decoder's (R32). -/
  crcB : Word16
  store : Store
  dec : Dec
  /-- The Variant A CRC register, the Slave's (R32). -/
  crcA : Word16
  slv : Slave
  tmr : Timer
  /-- The transmit stream written so far (R45). -/
  tx : List TxEvent
  /-- The MODEL's own: the events still to be delivered, the next one first (R12). -/
  events : List Event
  /-- The MODEL's own: the value the last value-returning interface operation returned. -/
  ret : Option RetVal
deriving DecidableEq, Repr

/-- Why the machine stops with a fault. -/
inductive Fault where
  /-- `readRegister(i)` with `i ≥ registerCount()`, the one behaviour the source calls undefined (R171,
  R306, U1). Raised by `readRegister`, so by `Store.readRegister` and by a response frame asked for
  past the last register. Safe: the hardware would return some value. -/
  | readRegisterOutOfRange (i : Nat)
deriving DecidableEq, Repr

/-- Why the machine refuses to run. -/
inductive Refusal where
  /-- An instruction that has no meaning in the model; raised by no arm. Safe. -/
  | notModelled (mnemonic : String)
  /-- A configuration that is not well formed (R10, U2: "A model refuses a configuration that is not
  well formed"). Raised by `step`. Safe. -/
  | illFormedConfig
  /-- A byte row put to a state, or with an operand, that does not select it (R123: "A row is selected
  when (byte & mask) = match and the state agrees"). Raised by the meaning of a byte row called directly;
  `step` never raises it, for it runs the row the byte selects. Safe (log entry 5). -/
  | rowNotSelected
deriving DecidableEq, Repr

/-- The Store at power-on (R48): live and staged words 0, flags and slot clear. -/
def Store.powerOn (c : Cfg) : Store where
  live := List.replicate (2 * c.nCodes) 0
  staged := List.replicate (2 * c.nCodes) 0
  sset := List.replicate c.nCodes false
  det := none

/-- The decoder at power-on (R48), which is also what a full decoder reset leaves (R202, R330). -/
def Dec.powerOn : Dec where
  state := .seekEsc
  k := 0
  j := 0
  t := 0
  lv := []
  tag := .octet
  rem := 0
  buf := []
  scale := 0
  snap := 0xFFFF
  tlo := 0

/-- The Slave at power-on (R48). -/
def Slave.powerOn : Slave where
  state := .idle
  buf := List.replicate frameBuf 0
  n := 0

/-- The power-on state under configuration `c` (R48, R330): no event is waiting. -/
def State.powerOn (c : Cfg) : State where
  cfg := c
  crcB := CrcVariant.B.cfg.seed
  store := Store.powerOn c
  dec := Dec.powerOn
  crcA := CrcVariant.A.cfg.seed
  slv := Slave.powerOn
  tmr := { elapsed := c.tSilent }
  tx := []
  events := []
  ret := none

/-- The machine right after reset: power-on under the default configuration (log entry 1). -/
def State.reset : State := State.powerOn Cfg.default

end Sys2Proof.Machine
end

