-- ==== Sys2Proof/Machine/Crc.lean ====
section
/-! DEFINITION. The CRC-16 Engine (spec R140 to R146): one shift-register algorithm in two fixed
configurations. -/

namespace Sys2Proof.Machine

/-- One iteration of R142: a logical shift right, and `poly` when bit 0 was set. -/
def crcShift (poly crc : Word16) : Word16 :=
  if crc.getLsbD 0 then (crc >>> 1) ^^^ poly else crc >>> 1

/-- `n` iterations of R142. -/
def crcShifts (poly : Word16) : Nat → Word16 → Word16
  | 0, crc => crc
  | n + 1, crc => crcShifts poly n (crcShift poly crc)

/-- `feed(b)` on a register value (R142): the byte into the low bits, then eight iterations. -/
def crcStep (v : CrcVariant) (crc : Word16) (b : Byte) : Word16 :=
  crcShifts v.cfg.poly 8 (crc ^^^ b.setWidth 16)

/-- `feed` of every byte of a list, in order. -/
def crcFold (v : CrcVariant) (crc : Word16) (p : List Byte) : Word16 := p.foldl (crcStep v) crc

/-- `crcOf(cfg, bytes)` (R145): the register after `reset()` and the bytes. -/
def crcOf (v : CrcVariant) (p : List Byte) : Word16 := crcFold v v.cfg.seed p

/-- The masked result (R143, R144). -/
def crcOut (v : CrcVariant) (crc : Word16) : Word16 := crc ^^^ v.cfg.xorout

/-- `lowByte()` of a register value (R143). -/
def crcLow (v : CrcVariant) (crc : Word16) : Byte := loByte (crcOut v crc)

/-- `highByte()` of a register value (R144). -/
def crcHigh (v : CrcVariant) (crc : Word16) : Byte := hiByte (crcOut v crc)

end Sys2Proof.Machine
end

