-- ==== Sys2Proof/Machine/Flags.lean ====
section
/-! DEFINITION. The block's flags (spec R46): the detected-code slot, the staged-set flags and the
quiet flag. No arithmetic sets a flag. -/

namespace Sys2Proof.Machine

/-- The quiet flag of a fieldbus byte (R46, R274): the silent interval passed before it. -/
def quietFlag (c : Cfg) (t : Timer) : Bool := decide (c.tSilent ≤ t.elapsed)

/-- `store.sset[k]` (R36). -/
def Store.isStaged (st : Store) (k : Nat) : Bool := st.sset.getD k false

/-- Every staged-set flag clear (R161, R167). -/
def Store.clearFlags (st : Store) : Store := { st with sset := st.sset.map (fun _ => false) }

/-- The slot takes `d` (R37). -/
def Store.setDet (st : Store) (d : Option Nat) : Store := { st with det := d }

/-- Pair `k` is persistent (R168). -/
def persistent (c : Cfg) (k : Nat) : Bool := decide (k < c.pPersist)

end Sys2Proof.Machine
end

