-- ==== Sys2Proof/Machine/Operands.lean ====
section
/-! DEFINITION. Operand forms and arithmetic (spec R15, R103, R104, R107, R108, R112, R229): the
payload length of an element, the value of an Integer, the scaling of a reading, and the fields of a
request. Arithmetic is exact on `Int` and narrowed where the spec narrows it. -/

namespace Sys2Proof.Machine

/-- The tag nibble of an element type (R103). -/
def Tag.code : Tag → Nibble
  | .octet => 0x0
  | .bool => 0x4
  | .int => 0x5
  | .uint => 0x6

/-- The element type of a tag nibble; `none` for a List (0x7) and for the illegal tags (R103). -/
def elemTag (t : Nibble) : Option Tag :=
  if t = 0x0 then some .octet
  else if t = 0x4 then some .bool
  else if t = 0x5 then some .int
  else if t = 0x6 then some .uint
  else none

/-- `payloadLen(n)` (R104): `n − TL_LEN_BIAS`, and 0 where the bias is larger. -/
def payloadLen (c : Cfg) (n : Nibble) : Nat := n.toNat - c.tlLenBias

/-- `wrap64` (R15): the i64 congruent to `v` modulo 2^64. -/
def wrap64 (v : Int) : Int := (BitVec.ofInt 64 v).toInt

/-- The two's-complement number that `n` spells in `bits` bits (`sext` of R15). -/
def signedOf (bits : Nat) (n : Nat) : Int :=
  if 2 * n < 2 ^ bits then (n : Int) else (n : Int) - 2 ^ bits

/-- `intValue(p)` (R107): the big-endian two's-complement value of the payload, modulo 2^64; 0 for an
empty payload. -/
def intValue (p : List Byte) : I64 := BitVec.ofInt 64 (signedOf (8 * p.length) (beNat p))

/-- The value of a scaler's payload (R108): a one-byte Integer; `none` for any other length. -/
def scalerValue (p : List Byte) : Option (BitVec 8) :=
  match p with
  | [b] => some b
  | _ => none

/-- The first loop of `toScale` (R229): `n` multiplications by 10, each modulo 2^64. -/
def scaleUp : Nat → Int → Int
  | 0, v => v
  | n + 1, v => scaleUp n (wrap64 (v * 10))

/-- The second loop of `toScale` (R229): `n` truncating divisions by 10; the value and the last
remainder. -/
def scaleDown : Nat → Int → Int → Int × Int
  | 0, v, r => (v, r)
  | n + 1, v, _ => scaleDown n (v.tdiv 10) (v.tmod 10)

/-- The rounding of `toScale` (R229): half away from zero on the last remainder. -/
def roundLast (v r : Int) : Int :=
  if 0 ≤ v ∧ 5 ≤ r then v + 1
  else if v ≤ 0 ∧ r ≤ -5 then v - 1
  else v

/-- `toScale` on numbers, before the truncation (R229): one of the two loops runs, by the sign of the
scaler. -/
def scaleNumber (v : Int) (scaler : Int) : Int :=
  let up := scaleUp scaler.toNat v
  let down := scaleDown (-scaler).toNat up 0
  roundLast down.1 down.2

/-- `toScale(value, scaler)` (R229): the scaled value, truncated to 32 bits and sign-extended. -/
def toScale (value : I64) (scaler : BitVec 8) : I64 :=
  ((BitVec.ofInt 64 (scaleNumber value.toInt scaler.toInt)).extractLsb' 0 32).signExtend 64

/-- The fields of a request that the block reads (R111, R112). -/
structure Request where
  paramHi : Byte
  start : Byte
  countHi : Byte
  count : Byte
deriving DecidableEq, Repr

/-- The request in the frame buffer (R111: `slv.buf[i]` is frame byte i+1). -/
def requestOf (buf : List Byte) : Request where
  paramHi := buf.getD 1 0
  start := buf.getD 2 0
  countHi := buf.getD 3 0
  count := buf.getD 4 0

/-- The six tests of R268, all of which must fail for the request to be served. -/
def Request.illegal (c : Cfg) (r : Request) : Bool :=
  (r.paramHi != c.paramHi) || (r.countHi != 0x00) || decide (c.nReg ≤ r.start.toNat) ||
  (r.count == 0) || decide (c.nReg < r.count.toNat) ||
  decide (c.nReg - r.start.toNat < r.count.toNat)

end Sys2Proof.Machine
end

