-- ==== Sys2Proof/Machine/Ops.lean ====
section
/-! DEFINITION. The shared operations of the block: the updates of the state's fields; the Store's
operations (spec R161 to R171); the decoder's resets, the block's trap entry (R202, R206, R311), and its
framing and element operations (R203 to R230); the Slave's emission and its exception response
(R269 to R276), the filters and the frame handling (R261 to R272); and the silence timer (R273). -/

namespace Sys2Proof.Machine

/-! ### Field updates (R16: `x <- v`) -/

def State.setCrcA (x : Word16) (s : State) : State := { s with crcA := x }
def State.setCrcB (x : Word16) (s : State) : State := { s with crcB := x }
def State.setStore (x : Store) (s : State) : State := { s with store := x }
def State.setDec (x : Dec) (s : State) : State := { s with dec := x }
def State.setSlv (x : Slave) (s : State) : State := { s with slv := x }
def State.setTmr (x : Timer) (s : State) : State := { s with tmr := x }
def State.setTx (x : List TxEvent) (s : State) : State := { s with tx := x }
def State.setEvents (x : List Event) (s : State) : State := { s with events := x }
def State.setRet (x : Option RetVal) (s : State) : State := { s with ret := x }

/-- The CRC register of a variant (R32). -/
def State.crc (v : CrcVariant) (s : State) : Word16 :=
  match v with
  | .A => s.crcA
  | .B => s.crcB

/-- Writing the CRC register of a variant (R32). -/
def State.setCrc (v : CrcVariant) (x : Word16) (s : State) : State :=
  match v with
  | .A => s.setCrcA x
  | .B => s.setCrcB x

/-! ### The Register Store -/

/-- `reset()` (R161): flags and slot cleared; live and staged words kept. -/
def Store.reset (st : Store) : Store := st.clearFlags.setDet none

/-- The code index that a presented string names (R162, R163): six bytes, the last of them
`CODE_SUFFIX`, the first five the lowest matching entry of the code table. -/
def matchCode (c : Cfg) (p : List Byte) : Option Nat :=
  if p.length = codeLen + 1 ∧ p.getD codeLen 0 = codeSuffix then
    c.codeTable.findIdx? (fun e => e == p.take codeLen)
  else none

/-- `presentCode(s)` (R162). -/
def Store.presentCode (c : Cfg) (p : List Byte) (st : Store) : Store := st.setDet (matchCode c p)

/-- `presentValue(v)` (R164): no effect unless a code was just detected. -/
def Store.presentValue (v : I64) (st : Store) : Store :=
  match st.det with
  | none => st
  | some k =>
    { st with
      staged := (st.staged.set (2 * k) (v.extractLsb' 16 16)).set (2 * k + 1) (v.extractLsb' 0 16)
      sset := st.sset.set k true
      det := none }

/-- The live word at index `i` after a commit (R167, R168): promoted if its pair is staged, zero if the
pair is transient and absent, else unchanged. -/
def Store.committedWord (c : Cfg) (st : Store) (i : Nat) (w : Word16) : Word16 :=
  if st.isStaged (i / 2) then st.staged.getD i 0
  else if persistent c (i / 2) then w
  else 0

/-- `commit()` (R167): every pair in one atomic step (R79). -/
def Store.commit (c : Cfg) (st : Store) : Store :=
  { st.clearFlags with live := st.live.mapIdx (fun i w => st.committedWord c i w) }

/-- `registerCount()` (R169), as the number it stands for. -/
def registerCount (c : Cfg) : Nat := c.nReg

/-- `readRegister(i)` (R170, R171): the version words, else the live register at `i − 2`; past
`registerCount()` it faults. -/
def readRegister (c : Cfg) (st : Store) (i : Nat) : Except Fault Word16 :=
  if registerCount c ≤ i then .error (.readRegisterOutOfRange i)
  else if i = 0 then .ok c.versionHi
  else if i = 1 then .ok c.versionLo
  else
    match st.live[i - 2]? with
    | some w => .ok w
    | none => .error (.readRegisterOutOfRange i)

/-- `n` consecutive registers from `i`, in index order (R78, R269). -/
def readRegisters (c : Cfg) (st : Store) (i : Nat) : Nat → Except Fault (List Word16)
  | 0 => .ok []
  | n + 1 =>
    match readRegister c st i with
    | .error f => .error f
    | .ok w =>
      match readRegisters c st (i + 1) n with
      | .error f => .error f
      | .ok ws => .ok (w :: ws)

/-! ### The decoder: checksum and resets -/

/-- The byte goes into the running checksum (R201). -/
def feedCrcB (b : Byte) (s : State) : State := s.setCrcB (crcStep .B s.crcB b)

/-- The causes of a full decoder reset (R301). No state records them. -/
inductive ResetCause where
  | framingDesync
  | escapeOfEscape
  | nestingOverflow
  | elementOverflow
  | illegalTag
deriving DecidableEq, Repr

/-- `fullReset()` (R202): every decoder field, the running checksum and the Store's staging. -/
def fullReset (s : State) : State :=
  ((s.setDec Dec.powerOn).setCrcB CrcVariant.B.cfg.seed).setStore s.store.reset

/-- `raise DecoderReset(cause)` (R17, R301, R311): the block's trap entry, one full reset whatever the
cause. The byte that raised it is consumed (R312). -/
def decoderReset (_cause : ResetCause) (s : State) : State := fullReset s

/-- `beginMessage()` (R206): staging, nesting, element and scale cleared; the checksum runs on. -/
def beginMessage (s : State) : State :=
  (s.setStore s.store.reset).setDec
    { s.dec with lv := [], tag := .octet, rem := 0, buf := [], scale := 0, j := 0, state := .inMsg }

/-! ### The decoder: framing -/

/-- An escape in SEEK_ESC (R203): the fourth one leads to SEEK_TYPE. -/
def escapeSeen (s : State) : State :=
  if s.dec.k + 1 = escRun then s.setDec { s.dec with k := 0, j := 0, state := .seekType }
  else s.setDec { s.dec with k := s.dec.k + 1 }

/-- A begin byte in SEEK_TYPE (R204, R205): the last of the marker begins the message. -/
def beginByteSeen (s : State) : State :=
  let s' := s.setDec { s.dec with j := s.dec.j + 1 }
  if s.dec.j + 1 = beginRun then beginMessage s' else s'

/-- `endMarker()` (R208). -/
def endMarker (s : State) : State := s.setDec { s.dec with state := .endFill }

/-- The fill count (R209), after it has been fed: the checksum is snapshotted. -/
def endFill (s : State) : State :=
  s.setDec { s.dec with snap := s.crcB, t := 0, state := .trailer }

/-- The first trailer byte (R210). -/
def trailerLow (b : Byte) (s : State) : State := s.setDec { s.dec with tlo := b, t := 1 }

/-- The trailer with second byte `b` matches the snapshot (R211): low byte first. -/
def trailerMatches (b : Byte) (d : Dec) : Bool :=
  d.tlo == crcLow .B d.snap && b == crcHigh .B d.snap

/-- The second trailer byte (R211): commit on a match, discard otherwise, and a full reset. -/
def trailerHigh (b : Byte) (s : State) : State :=
  if trailerMatches b s.dec then fullReset (s.setStore (s.store.commit s.cfg))
  else fullReset (s.setStore s.store.reset)

/-- An escape at a structural position (R213). -/
def escInMessage (s : State) : State := s.setDec { s.dec with state := .seekEsc, k := 1 }

/-! ### The decoder: structure -/

/-- `childDone()` on the nesting stack (R218): one more child of the innermost level; a level this
completes closes and is a child of the next. -/
def childDone : List Level → List Level
  | [] => []
  | l :: ls => if l.rd + 1 = l.exp then childDone ls else { l with rd := l.rd + 1 } :: ls

/-- `closeCurrent()` on the nesting stack (R217): nothing when no level is open. -/
def closeCurrentLv : List Level → List Level
  | [] => []
  | _ :: ls => childDone ls

/-- `closeCurrent()` (R217). -/
def closeCurrent (s : State) : State := s.setDec { s.dec with lv := closeCurrentLv s.dec.lv }

/-- `pushList(n)` (R215). -/
def pushList (n : Nibble) (s : State) : State :=
  if s.dec.d = s.cfg.maxDepth then decoderReset .nestingOverflow s
  else s.setDec { s.dec with lv := { exp := n.toNat, rd := 0 } :: s.dec.lv }

/-- `captureScale(p)` (R227): ignored unless the Integer is one byte long. -/
def captureScale (p : List Byte) (s : State) : State :=
  match scalerValue p with
  | some x => s.setDec { s.dec with scale := x }
  | none => s

/-- The domain-code callback (R226). -/
def presentCode (p : List Byte) (s : State) : State := s.setStore (s.store.presentCode s.cfg p)

/-- `presentReading(p)` (R228). -/
def presentReading (p : List Byte) (s : State) : State :=
  s.setStore (s.store.presentValue (toScale (intValue p) s.dec.scale))

/-- `callback(tag, depth, pos, p)` (R225, R230): three tracked elements, every other one ignored. -/
def callback (tag : Tag) (depth pos : Nat) (p : List Byte) (s : State) : State :=
  if depth ≠ s.cfg.codeDepth then s
  else
    let s1 := if tag = .octet ∧ pos = s.cfg.codePos then presentCode p s else s
    let s2 := if tag = .int ∧ pos = s.cfg.scalePos then captureScale p s1 else s1
    if tag = .int ∧ pos = s.cfg.valuePos then presentReading p s2 else s2

/-- `completeElement(tag, p)` (R224): the callback at the element's position, then the count; neither
at depth 0. -/
def completeElement (tag : Tag) (p : List Byte) (s : State) : State :=
  match s.dec.lv with
  | [] => s.setDec { s.dec with state := .inMsg }
  | l :: _ =>
    let s1 := callback tag s.dec.d l.rd p s
    s1.setDec { s1.dec with lv := childDone s1.dec.lv, state := .inMsg }

/-- `startAccum(tag, L)` (R220). -/
def startAccum (tag : Tag) (len : Nat) (s : State) : State :=
  s.setDec { s.dec with tag := tag, rem := len, buf := [], state := .accum }

/-- A scalar TL byte (R212, R219, R220, R221): inline when empty, a reset when longer than the element
buffer, else the start of its payload. -/
def scalarElement (tag : Tag) (n : Nibble) (s : State) : State :=
  if payloadLen s.cfg n = 0 then completeElement tag [] s
  else if s.cfg.elemBuf < payloadLen s.cfg n then decoderReset .elementOverflow s
  else startAccum tag (payloadLen s.cfg n) s

/-- `accumulate(b)` (R223). -/
def accumulate (b : Byte) (s : State) : State :=
  let s1 := s.setDec { s.dec with buf := s.dec.buf ++ [b], rem := s.dec.rem - 1 }
  if s1.dec.rem = 0 then completeElement s1.dec.tag s1.dec.buf s1 else s1

/-! ### The decoder: the feed event -/

/-- `seekEsc(b)` (R203). -/
def seekEsc (b : Byte) (s : State) : State :=
  if b = s.cfg.escByte then escapeSeen s else decoderReset .framingDesync s

/-- `seekType(b)` (R204, R205, R207, R208). -/
def seekType (b : Byte) (s : State) : State :=
  if s.dec.j = 0 then
    if b = beginByte then beginByteSeen s
    else if b = endByte then endMarker s
    else if b = s.cfg.escByte then decoderReset .escapeOfEscape s
    else decoderReset .framingDesync s
  else if b = beginByte then beginByteSeen s
  else decoderReset .framingDesync s

/-- `trailerByte(b)` (R210, R211). -/
def trailerByte (b : Byte) (s : State) : State :=
  if s.dec.t = 0 then trailerLow b s else trailerHigh b s

/-- `structural(b)` (R212). -/
def structural (b : Byte) (s : State) : State :=
  if b = s.cfg.escByte then escInMessage s
  else if b = 0x00 then closeCurrent s
  else if tlTag b = 0x7 then
    if tlCount b = 0 then closeCurrent s else pushList (tlCount b) s
  else
    match elemTag (tlTag b) with
    | some tag => scalarElement tag (tlCount b) s
    | none => decoderReset .illegalTag s

/-- `feed(b)` (R200): every byte but those of the trailer goes into the checksum first (R201). -/
def feed (b : Byte) (s : State) : State :=
  match s.dec.state with
  | .trailer => trailerByte b s
  | .seekEsc => seekEsc b (feedCrcB b s)
  | .seekType => seekType b (feedCrcB b s)
  | .endFill => endFill (feedCrcB b s)
  | .inMsg => structural b (feedCrcB b s)
  | .accum => accumulate b (feedCrcB b s)

/-- `feed` of every byte of a list, in order (the `T` events of R120). -/
def feedAll (p : List Byte) (s : State) : State := p.foldl (fun s b => feed b s) s

/-! ### The Slave: emission and exceptions -/

/-- A frame with its checksum, low byte first (R74, R113, R114). -/
def withChecksum (body : List Byte) : List Byte :=
  body ++ [crcLow .A (crcOf .A body), crcHigh .A (crcOf .A body)]

/-- The output events of a frame (R275): the silent gap, then its bytes. -/
def frameEvents (bytes : List Byte) : List TxEvent := .gap :: bytes.map .byte

/-- Emission of a frame (R269, R270, R276): the checksum runs over the whole body, and the frame goes to
the transmit stream behind a gap. -/
def sendFrame (body : List Byte) (s : State) : State :=
  (s.setCrcA (crcOf .A body)).setTx (s.tx ++ frameEvents (withChecksum body))

/-- The body of a normal response (R113) that carries `words`. -/
def responseBody (c : Cfg) (count : Nat) (words : List Word16) : List Byte :=
  [c.devAddr, funcRd, BitVec.ofNat 8 (2 * count)] ++ words.flatMap wordBytes

/-- The body of an exception response (R114). -/
def exceptionBody (c : Cfg) (func code : Byte) : List Byte := [c.devAddr, func ||| 0x80, code]

/-- `respond(start, cnt)` (R269). -/
def respond (start count : Nat) (s : State) : Except Fault State :=
  match readRegisters s.cfg s.store start count with
  | .error f => .error f
  | .ok words => .ok (sendFrame (responseBody s.cfg count words) s)

/-- `raise SlaveException(code, func)` (R17, R276, R311): the exception response, the Slave's trap entry.
The return from it is `toIdle` (R272, R313). -/
def slaveException (code func : Byte) (s : State) : State :=
  sendFrame (exceptionBody s.cfg func code) s

/-- The Slave's return to IDLE after a frame (R272, R313). -/
def toIdle (s : State) : State := s.setSlv { s.slv with n := 0, state := .idle }

/-! ### The Slave: the byte event -/

/-- The checksum of the request in the buffer (R264): the device address, then bytes 0 to 4. -/
def frameCrc (s : State) : Word16 := crcOf .A (s.cfg.devAddr :: s.slv.buf.take 5)

/-- `frameCheck()` (R264): the two checksum bytes of the buffer are those of the rest. -/
def frameCheck (s : State) : Bool :=
  crcLow .A (frameCrc s) == s.slv.buf.getD 5 0 && crcHigh .A (frameCrc s) == s.slv.buf.getD 6 0

/-- `readInputRegisters()` (R268, R271): an illegal request is answered by exception 0x02. -/
def readInputRegisters (s : State) : Except Fault State :=
  let r := requestOf s.slv.buf
  if r.illegal s.cfg then .ok (slaveException excIllegalDataAddress funcRd s)
  else respond r.start.toNat r.count.toNat s

/-- `dispatch()` (R266, R267). -/
def dispatch (s : State) : Except Fault State :=
  if s.slv.buf.getD 0 0 ≠ funcRd then
    .ok (slaveException excIllegalFunction (s.slv.buf.getD 0 0) s)
  else readInputRegisters s

/-- A full frame (R263, R265): checked, and dispatched if the checksum holds, dropped if not; the Slave
is in IDLE afterwards (R272). -/
def completeFrame (s : State) : Except Fault State :=
  let s1 := s.setCrcA (frameCrc s)
  if frameCheck s then
    match dispatch s1 with
    | .error f => .error f
    | .ok s2 => .ok (toIdle s2)
  else .ok (toIdle s1)

/-- The address matched (R261). -/
def addressMatched (s : State) : State := s.setSlv { s.slv with state := .addrMatched }

/-- The function byte matched (R262). -/
def functionMatched (b : Byte) (s : State) : State :=
  s.setSlv { s.slv with buf := s.slv.buf.set 0 b, n := 1, state := .collecting }

/-- The function byte did not match (R262): IDLE, with no response. -/
def functionRejected (s : State) : State := s.setSlv { s.slv with state := .idle }

/-- The byte goes into the frame buffer (R263). -/
def storeFrameByte (b : Byte) (s : State) : State :=
  s.setSlv { s.slv with buf := s.slv.buf.set s.slv.n b, n := s.slv.n + 1 }

/-- `collectByte(b)` (R263). -/
def collectByte (b : Byte) (s : State) : Except Fault State :=
  let s1 := storeFrameByte b s
  if s1.slv.n = frameBuf then completeFrame s1 else .ok s1

/-- `idleByte(b, quiet)` (R261). -/
def idleByte (b : Byte) (quiet : Bool) (s : State) : State :=
  if quiet = true ∧ b = s.cfg.devAddr then addressMatched s else s

/-- `funcByte(b)` (R262). -/
def funcByte (b : Byte) (s : State) : State :=
  if b = funcRd then functionMatched b s else functionRejected s

/-- `onByte(b, quiet)` (R260): the quiet flag is read in IDLE only (R278). -/
def onByte (b : Byte) (quiet : Bool) (s : State) : Except Fault State :=
  match s.slv.state with
  | .idle => .ok (idleByte b quiet s)
  | .addrMatched => .ok (funcByte b s)
  | .collecting => collectByte b s

/-- `onByte` of every byte of a list, none of them quiet (the `F` events of R120). -/
def onBytes : List Byte → State → Except Fault State
  | [], s => .ok s
  | b :: p, s =>
    match onByte b false s with
    | .error f => .error f
    | .ok s1 => onBytes p s1

/-- A request frame (R111), as the pseudo-event `F.REQ` of R121: its first byte quiet, the rest not. -/
def onFrame (bytes : List Byte) (s : State) : Except Fault State :=
  match bytes with
  | [] => .ok s
  | addr :: rest =>
    match onByte addr true s with
    | .error f => .error f
    | .ok s1 => onBytes rest s1

/-! ### The silence timer -/

/-- `tick()` (R273). -/
def tick (s : State) : State :=
  if s.tmr.elapsed < s.cfg.tSilent then s.setTmr { elapsed := s.tmr.elapsed + 1 } else s

/-- `rx(b)` (R274): the quiet flag from the ticks since the last byte, then the byte. -/
def rx (b : Byte) (s : State) : Except Fault State :=
  onByte b (quietFlag s.cfg s.tmr) (s.setTmr { elapsed := 0 })

/-! ### Outcomes -/

/-- The outcome of an operation that can fault. -/
def outcomeOf (r : Except Fault State) : Host.Outcome State Fault Refusal :=
  match r with
  | .ok s => .next s
  | .error f => .fault f

/-- The row of `i` is selected in state `s` (R123). -/
def decCtx (d : Dec) : TeleCtx :=
  match d.state with
  | .seekEsc => .seekEsc
  | .seekType => if d.j = 0 then .seekTypeFirst else .seekTypeRest
  | .endFill => .endFill
  | .trailer => if d.t = 0 then .trailerFirst else .trailerSecond
  | .inMsg => .inMsg
  | .accum => .accum

/-- The decoding context of a state (R31): the two control states. -/
def State.ctx (s : State) : Ctx where
  tele := decCtx s.dec
  bus := s.slv.state

/-- The row of `i` is selected in state `s` (R123): its state agrees and it admits its operands. -/
def selected (i : Instr) (s : State) : Bool := s.ctx.agrees i.rowState && i.wellFormed s.cfg

/-- The meaning of the byte row `i`: `r` where the row is selected, a refusal elsewhere (log entry 5). -/
def onRow (i : Instr) (s : State) (r : Except Fault State) : Host.Outcome State Fault Refusal :=
  if selected i s then outcomeOf r else .refused .rowNotSelected

end Sys2Proof.Machine
end

