-- ==== Sys2Proof/Machine/Fieldbus.lean ====
section
/-! DEFINITION. The rows of the fieldbus (spec R261 to R271, R113, R114): the Slave's byte classes, the
request frame and the frames it emits. -/

namespace Sys2Proof.Machine

/-- IDLE.ADDR (R261). -/
def execIdleAddr (s : State) : Host.Outcome State Fault Refusal :=
  onRow .idleAddr s (.ok (addressMatched s))

/-- IDLE.OTHER (R261): the byte is discarded. -/
def execIdleOther (b : Byte) (quiet : Bool) (s : State) : Host.Outcome State Fault Refusal :=
  onRow (.idleOther b quiet) s (.ok s)

/-- ADDR_MATCHED.FUNC (R262). -/
def execAddrMatchedFunc (quiet : Bool) (s : State) : Host.Outcome State Fault Refusal :=
  onRow (.addrMatchedFunc quiet) s (.ok (functionMatched funcRd s))

/-- ADDR_MATCHED.OTHER (R262): back to IDLE, no response. -/
def execAddrMatchedOther (b : Byte) (quiet : Bool) (s : State) : Host.Outcome State Fault Refusal :=
  onRow (.addrMatchedOther b quiet) s (.ok (functionRejected s))

/-- COLLECTING.DATA (R263). -/
def execCollectingData (b : Byte) (quiet : Bool) (s : State) : Host.Outcome State Fault Refusal :=
  onRow (.collectingData b quiet) s (collectByte b s)

/-- REQ.READ_INPUT_REGISTERS (R111, R268): the eight bytes of the frame, the first of them quiet, each
by the Slave's byte event (log entry 6). -/
def execReqReadInputRegisters (paramHi start countHi count crcLo crcHi : Byte) (s : State) :
    Host.Outcome State Fault Refusal :=
  outcomeOf (onFrame [s.cfg.devAddr, funcRd, paramHi, start, countHi, count, crcLo, crcHi] s)

/-- RESP.READ_INPUT_REGISTERS (R269): the emission of a normal response. -/
def execRespReadInputRegisters (start count : Byte) (s : State) :
    Host.Outcome State Fault Refusal :=
  outcomeOf (respond start.toNat count.toNat s)

/-- RESP.EXC_ILLEGAL_FUNCTION (R267): the emission of exception 0x01 for function `func`. -/
def execRespExcIllegalFunction (func : Byte) (s : State) : Host.Outcome State Fault Refusal :=
  .next (slaveException excIllegalFunction func s)

/-- RESP.EXC_ILLEGAL_DATA_ADDRESS (R271): the emission of exception 0x02. -/
def execRespExcIllegalDataAddress (s : State) : Host.Outcome State Fault Refusal :=
  .next (slaveException excIllegalDataAddress funcRd s)

end Sys2Proof.Machine
end

