-- ==== Sys2Proof/Machine/Framing.lean ====
section
/-! DEFINITION. The framing rows of the telemetry stream (spec R203 to R211): SEEK_ESC, SEEK_TYPE,
END_FILL and TRAILER. Every row but the two of TRAILER feeds its byte to the checksum first (R201). -/

namespace Sys2Proof.Machine

/-- SEEK_ESC.ESC (R203). -/
def execSeekEscEsc (s : State) : Host.Outcome State Fault Refusal :=
  onRow .seekEscEsc s (.ok (escapeSeen (feedCrcB s.cfg.escByte s)))

/-- SEEK_ESC.OTHER (R203). -/
def execSeekEscOther (b : Byte) (s : State) : Host.Outcome State Fault Refusal :=
  onRow (.seekEscOther b) s (.ok (decoderReset .framingDesync (feedCrcB b s)))

/-- SEEK_TYPE.BEGIN (R204): the first begin byte. -/
def execSeekTypeBegin (s : State) : Host.Outcome State Fault Refusal :=
  onRow .seekTypeBegin s (.ok (beginByteSeen (feedCrcB beginByte s)))

/-- SEEK_TYPE.END (R208). -/
def execSeekTypeEnd (s : State) : Host.Outcome State Fault Refusal :=
  onRow .seekTypeEnd s (.ok (endMarker (feedCrcB endByte s)))

/-- SEEK_TYPE.ESCESC (R207). -/
def execSeekTypeEscEsc (s : State) : Host.Outcome State Fault Refusal :=
  onRow .seekTypeEscEsc s (.ok (decoderReset .escapeOfEscape (feedCrcB s.cfg.escByte s)))

/-- SEEK_TYPE.OTHER (R204). -/
def execSeekTypeOther (b : Byte) (s : State) : Host.Outcome State Fault Refusal :=
  onRow (.seekTypeOther b) s (.ok (decoderReset .framingDesync (feedCrcB b s)))

/-- SEEK_TYPE.BEGIN_N (R205): a later begin byte; the fourth begins the message (R206). -/
def execSeekTypeBeginN (s : State) : Host.Outcome State Fault Refusal :=
  onRow .seekTypeBeginN s (.ok (beginByteSeen (feedCrcB beginByte s)))

/-- SEEK_TYPE.OTHER_N (R205). -/
def execSeekTypeOtherN (b : Byte) (s : State) : Host.Outcome State Fault Refusal :=
  onRow (.seekTypeOtherN b) s (.ok (decoderReset .framingDesync (feedCrcB b s)))

/-- END_FILL.FILL (R209). -/
def execEndFillFill (fill : Byte) (s : State) : Host.Outcome State Fault Refusal :=
  onRow (.endFillFill fill) s (.ok (endFill (feedCrcB fill s)))

/-- TRAILER.CRC_LO (R210): not fed to the checksum. -/
def execTrailerCrcLo (lo : Byte) (s : State) : Host.Outcome State Fault Refusal :=
  onRow (.trailerCrcLo lo) s (.ok (trailerLow lo s))

/-- TRAILER.CRC_HI (R211): not fed to the checksum. -/
def execTrailerCrcHi (hi : Byte) (s : State) : Host.Outcome State Fault Refusal :=
  onRow (.trailerCrcHi hi) s (.ok (trailerHigh hi s))

end Sys2Proof.Machine
end

