-- ==== Sys2Proof/Machine/Interface.lean ====
section
/-! DEFINITION. The interface operations (spec R118): the CRC-16 Engine, the Register Store, the
decoder's `feed`, the Slave's `onByte` and the silence timer. A value an operation returns is left in
`ret` (log entry 7). -/

namespace Sys2Proof.Machine

/-- CRC.reset (R141). -/
def execCrcReset (v : CrcVariant) (s : State) : Host.Outcome State Fault Refusal :=
  .next (s.setCrc v v.cfg.seed)

/-- CRC.feed (R142). -/
def execCrcFeed (v : CrcVariant) (b : Byte) (s : State) : Host.Outcome State Fault Refusal :=
  .next (s.setCrc v (crcStep v (s.crc v) b))

/-- CRC.lowByte (R143). -/
def execCrcLowByte (v : CrcVariant) (s : State) : Host.Outcome State Fault Refusal :=
  .next (s.setRet (some (.u8 (crcLow v (s.crc v)))))

/-- CRC.highByte (R144). -/
def execCrcHighByte (v : CrcVariant) (s : State) : Host.Outcome State Fault Refusal :=
  .next (s.setRet (some (.u8 (crcHigh v (s.crc v)))))

/-- Store.reset (R161). -/
def execStoreReset (s : State) : Host.Outcome State Fault Refusal :=
  .next (s.setStore s.store.reset)

/-- Store.presentCode (R162). -/
def execStorePresentCode (p : List Byte) (s : State) : Host.Outcome State Fault Refusal :=
  .next (s.setStore (s.store.presentCode s.cfg p))

/-- Store.presentValue (R164). -/
def execStorePresentValue (v : I64) (s : State) : Host.Outcome State Fault Refusal :=
  .next (s.setStore (s.store.presentValue v))

/-- Store.commit (R167). -/
def execStoreCommit (s : State) : Host.Outcome State Fault Refusal :=
  .next (s.setStore (s.store.commit s.cfg))

/-- Store.registerCount (R169). -/
def execStoreRegisterCount (s : State) : Host.Outcome State Fault Refusal :=
  .next (s.setRet (some (.u8 (BitVec.ofNat 8 (registerCount s.cfg)))))

/-- Store.readRegister (R170, R171). -/
def execStoreReadRegister (i : Nat) (s : State) : Host.Outcome State Fault Refusal :=
  match readRegister s.cfg s.store i with
  | .ok w => .next (s.setRet (some (.u16 w)))
  | .error f => .fault f

/-- Decoder.feed (R200). -/
def execDecoderFeed (b : Byte) (s : State) : Host.Outcome State Fault Refusal :=
  .next (feed b s)

/-- Slave.onByte (R260). -/
def execSlaveOnByte (b : Byte) (quiet : Bool) (s : State) : Host.Outcome State Fault Refusal :=
  outcomeOf (onByte b quiet s)

/-- Timer.tick (R273). -/
def execTimerTick (s : State) : Host.Outcome State Fault Refusal :=
  .next (tick s)

/-- Timer.rx (R274). -/
def execTimerRx (b : Byte) (s : State) : Host.Outcome State Fault Refusal :=
  outcomeOf (rx b s)

end Sys2Proof.Machine
end

