-- ==== Sys2Proof/Machine/Structural.lean ====
section
/-! DEFINITION. The rows at a structural position and inside an element (spec R212 to R224): IN_MSG and
ACCUM. Every byte goes into the checksum first (R201). -/

namespace Sys2Proof.Machine

/-- IN_MSG.ESC (R213). -/
def execInMsgEsc (s : State) : Host.Outcome State Fault Refusal :=
  onRow .inMsgEsc s (.ok (escInMessage (feedCrcB s.cfg.escByte s)))

/-- IN_MSG.ZERO (R214): the end-of-list marker. -/
def execInMsgZero (s : State) : Host.Outcome State Fault Refusal :=
  onRow .inMsgZero s (.ok (closeCurrent (feedCrcB 0x00 s)))

/-- IN_MSG.LIST_CLOSE (R216): closes the enclosing level. -/
def execInMsgListClose (s : State) : Host.Outcome State Fault Refusal :=
  onRow .inMsgListClose s (.ok (closeCurrent (feedCrcB (tlByte 0x7 0) s)))

/-- IN_MSG.LIST_PUSH (R215). -/
def execInMsgListPush (n : Nibble) (s : State) : Host.Outcome State Fault Refusal :=
  onRow (.inMsgListPush n) s (.ok (pushList n (feedCrcB (tlByte 0x7 n) s)))

/-- IN_MSG.BOOL_EMPTY (R219). -/
def execInMsgBoolEmpty (s : State) : Host.Outcome State Fault Refusal :=
  onRow .inMsgBoolEmpty s (.ok (scalarElement .bool 0 (feedCrcB (tlByte 0x4 0) s)))

/-- IN_MSG.INT_EMPTY (R219). -/
def execInMsgIntEmpty (s : State) : Host.Outcome State Fault Refusal :=
  onRow .inMsgIntEmpty s (.ok (scalarElement .int 0 (feedCrcB (tlByte 0x5 0) s)))

/-- IN_MSG.UINT_EMPTY (R219). -/
def execInMsgUintEmpty (s : State) : Host.Outcome State Fault Refusal :=
  onRow .inMsgUintEmpty s (.ok (scalarElement .uint 0 (feedCrcB (tlByte 0x6 0) s)))

/-- IN_MSG.OCTET (R219 to R221). -/
def execInMsgOctet (n : Nibble) (s : State) : Host.Outcome State Fault Refusal :=
  onRow (.inMsgOctet n) s (.ok (scalarElement .octet n (feedCrcB (tlByte 0x0 n) s)))

/-- IN_MSG.BOOL (R219 to R221). -/
def execInMsgBool (n : Nibble) (s : State) : Host.Outcome State Fault Refusal :=
  onRow (.inMsgBool n) s (.ok (scalarElement .bool n (feedCrcB (tlByte 0x4 n) s)))

/-- IN_MSG.INT (R219 to R221). -/
def execInMsgInt (n : Nibble) (s : State) : Host.Outcome State Fault Refusal :=
  onRow (.inMsgInt n) s (.ok (scalarElement .int n (feedCrcB (tlByte 0x5 n) s)))

/-- IN_MSG.UINT (R219 to R221). -/
def execInMsgUint (n : Nibble) (s : State) : Host.Outcome State Fault Refusal :=
  onRow (.inMsgUint n) s (.ok (scalarElement .uint n (feedCrcB (tlByte 0x6 n) s)))

/-- IN_MSG.ILLEGAL (R222). -/
def execInMsgIllegal (b : Byte) (s : State) : Host.Outcome State Fault Refusal :=
  onRow (.inMsgIllegal b) s (.ok (decoderReset .illegalTag (feedCrcB b s)))

/-- ACCUM.DATA (R223): every byte is payload, ESC_BYTE and 0x00 included. -/
def execAccumData (p : Byte) (s : State) : Host.Outcome State Fault Refusal :=
  onRow (.accumData p) s (.ok (accumulate p (feedCrcB p s)))

end Sys2Proof.Machine
end

