-- ==== Sys2Proof/Machine/Dispatch.lean ====
section
/-! DEFINITION. The dispatch: one arm per row of the opcode table, one direct call of its meaning. -/

namespace Sys2Proof.Machine

/-- The meaning of an instruction (spec R18: a total function of the state and the event). -/
def exec (i : Instr) (s : State) : Host.Outcome State Fault Refusal :=
  match i with
  | .seekEscEsc => Sys2Proof.Machine.execSeekEscEsc s
  | .seekEscOther b => Sys2Proof.Machine.execSeekEscOther b s
  | .seekTypeBegin => Sys2Proof.Machine.execSeekTypeBegin s
  | .seekTypeEnd => Sys2Proof.Machine.execSeekTypeEnd s
  | .seekTypeEscEsc => Sys2Proof.Machine.execSeekTypeEscEsc s
  | .seekTypeOther b => Sys2Proof.Machine.execSeekTypeOther b s
  | .seekTypeBeginN => Sys2Proof.Machine.execSeekTypeBeginN s
  | .seekTypeOtherN b => Sys2Proof.Machine.execSeekTypeOtherN b s
  | .endFillFill fill => Sys2Proof.Machine.execEndFillFill fill s
  | .trailerCrcLo lo => Sys2Proof.Machine.execTrailerCrcLo lo s
  | .trailerCrcHi hi => Sys2Proof.Machine.execTrailerCrcHi hi s
  | .inMsgEsc => Sys2Proof.Machine.execInMsgEsc s
  | .inMsgZero => Sys2Proof.Machine.execInMsgZero s
  | .inMsgListClose => Sys2Proof.Machine.execInMsgListClose s
  | .inMsgListPush n => Sys2Proof.Machine.execInMsgListPush n s
  | .inMsgBoolEmpty => Sys2Proof.Machine.execInMsgBoolEmpty s
  | .inMsgIntEmpty => Sys2Proof.Machine.execInMsgIntEmpty s
  | .inMsgUintEmpty => Sys2Proof.Machine.execInMsgUintEmpty s
  | .inMsgOctet n => Sys2Proof.Machine.execInMsgOctet n s
  | .inMsgBool n => Sys2Proof.Machine.execInMsgBool n s
  | .inMsgInt n => Sys2Proof.Machine.execInMsgInt n s
  | .inMsgUint n => Sys2Proof.Machine.execInMsgUint n s
  | .inMsgIllegal b => Sys2Proof.Machine.execInMsgIllegal b s
  | .accumData p => Sys2Proof.Machine.execAccumData p s
  | .idleAddr => Sys2Proof.Machine.execIdleAddr s
  | .idleOther b quiet => Sys2Proof.Machine.execIdleOther b quiet s
  | .addrMatchedFunc quiet => Sys2Proof.Machine.execAddrMatchedFunc quiet s
  | .addrMatchedOther b quiet => Sys2Proof.Machine.execAddrMatchedOther b quiet s
  | .collectingData b quiet => Sys2Proof.Machine.execCollectingData b quiet s
  | .reqReadInputRegisters paramHi start countHi count crcLo crcHi => Sys2Proof.Machine.execReqReadInputRegisters paramHi start countHi count crcLo crcHi s
  | .respReadInputRegisters start count => Sys2Proof.Machine.execRespReadInputRegisters start count s
  | .respExcIllegalFunction func => Sys2Proof.Machine.execRespExcIllegalFunction func s
  | .respExcIllegalDataAddress => Sys2Proof.Machine.execRespExcIllegalDataAddress s
  | .crcReset v => Sys2Proof.Machine.execCrcReset v s
  | .crcFeed v b => Sys2Proof.Machine.execCrcFeed v b s
  | .crcLowByte v => Sys2Proof.Machine.execCrcLowByte v s
  | .crcHighByte v => Sys2Proof.Machine.execCrcHighByte v s
  | .storeReset => Sys2Proof.Machine.execStoreReset s
  | .storePresentCode p => Sys2Proof.Machine.execStorePresentCode p s
  | .storePresentValue v => Sys2Proof.Machine.execStorePresentValue v s
  | .storeCommit => Sys2Proof.Machine.execStoreCommit s
  | .storeRegisterCount => Sys2Proof.Machine.execStoreRegisterCount s
  | .storeReadRegister r => Sys2Proof.Machine.execStoreReadRegister r s
  | .decoderFeed b => Sys2Proof.Machine.execDecoderFeed b s
  | .slaveOnByte b quiet => Sys2Proof.Machine.execSlaveOnByte b quiet s
  | .timerTick => Sys2Proof.Machine.execTimerTick s
  | .timerRx b => Sys2Proof.Machine.execTimerRx b s

end Sys2Proof.Machine
end

