-- ==== Sys2Proof/Machine/Fetch.lean ====
section
/-! DEFINITION. Fetching (spec R12, R31, R84): the block fetches no instructions; the environment
delivers its next event, and the control states of the two engines say which row of the opcode table
the event selects. -/

namespace Sys2Proof.Machine

/-- The environment's next event, and the state once it is taken (R12); `none` when none waits. -/
def fetchEvent (s : State) : Option (Event × State) :=
  match s.events with
  | [] => none
  | e :: rest => some (e, s.setEvents rest)

/-- The row that event `e` selects in state `s` (R110, R123). -/
def decodeAt (s : State) (e : Event) : Except DecodeError Instr := decode s.cfg s.ctx e

/-- What an event that selects no one row does: the bytes of a frame that is no request reach the Slave
one after another, the first of them quiet (R116, R121, R122; log entry 9). -/
def runByteByByte (why : DecodeError) (s : State) : Host.Outcome State Fault Refusal :=
  match why with
  | .notARequest bytes => outcomeOf (onFrame bytes s)

/-- `s` with event `e` delivered next. -/
def deliver (e : Event) (s : State) : State := s.setEvents (e :: s.events)

/-- The decoder or the Slave put in the state of a row of the table; nothing else changes. -/
def State.inRowState (s : State) : RowState → State
  | .tele .seekEsc => s.setDec { s.dec with state := .seekEsc }
  | .tele .seekTypeFirst => s.setDec { s.dec with state := .seekType, j := 0 }
  | .tele .seekTypeRest => s.setDec { s.dec with state := .seekType, j := 1 }
  | .tele .endFill => s.setDec { s.dec with state := .endFill }
  | .tele .trailerFirst => s.setDec { s.dec with state := .trailer, t := 0 }
  | .tele .trailerSecond => s.setDec { s.dec with state := .trailer, t := 1 }
  | .tele .inMsg => s.setDec { s.dec with state := .inMsg }
  | .tele .accum => s.setDec { s.dec with state := .accum }
  | .bus b => s.setSlv { s.slv with state := b }
  | .frame => s
  | .operation => s

/-- `s` with the bare word `w` of the opcode table delivered next, in the state its row applies in
(log entry 4); a word of another size changes nothing. -/
def placeTableWord (s : State) (nbits w : Nat) : State :=
  match tableEvent nbits w with
  | none => s
  | some e => deliver e (s.inRowState (tableRowState nbits w))

end Sys2Proof.Machine
end

