-- ==== Sys2Proof/Machine/Step.lean ====
section
/-! DEFINITION. One step (spec R12, R18, R319): the next event the environment delivers, decoded in the
state it meets and executed whole. -/

namespace Sys2Proof.Machine

/-- One step of the block. An ill-formed configuration is refused (R10); with no event waiting the
state persists unchanged (R319); an event runs the instruction it selects, on the state with the event
taken; a frame that selects no one row runs byte by byte. -/
def step (s : State) : Host.Outcome State Fault Refusal :=
  if s.cfg.wf then
    match fetchEvent s with
    | none => .next s
    | some (e, s1) =>
      match decodeAt s1 e with
      | .ok i => exec i s1
      | .error why => runByteByByte why s1
  else .refused .illFormedConfig

/-- `s` with the instruction of a word of the opcode table placed where `step` takes its next
instruction: its event is delivered next, in the state its row applies in. -/
def State.withFetchWord (s : State) (nbits w : Nat) : State := placeTableWord s nbits w

end Sys2Proof.Machine
end

