-- ==== Sys2Proof/Machine/Streams.lean ====
section
/-! DEFINITION. The spec's notation for event streams (R101, R120, R121): the byte lists of the
pseudo-events. They say what a sender puts on the wires; no step of the block calls them. -/

namespace Sys2Proof.Machine

/-- An escape run (R101). -/
def escapeRun (c : Cfg) : List Byte := List.replicate escRun c.escByte

/-- `T.BEGIN` (R121): an escape run and the begin marker. -/
def beginSequence (c : Cfg) : List Byte := escapeRun c ++ List.replicate beginRun beginByte

/-- `T.END f` (R121): an escape run, the end marker and the fill count. -/
def endSequence (c : Cfg) (fill : Byte) : List Byte := escapeRun c ++ [endByte, fill]

/-- `T.CRC` (R121): the Variant B checksum of the bytes, low byte first. -/
def trailerOf (p : List Byte) : List Byte := [crcLow .B (crcOf .B p), crcHigh .B (crcOf .B p)]

/-- `T.FRAME e1 .. em FILL f` (R101, R121): a whole telemetry message. -/
def messageBytes (c : Cfg) (elements : List Byte) (fill : Byte) : List Byte :=
  let body := beginSequence c ++ elements ++ endSequence c fill
  body ++ trailerOf body

/-- A scalar element on the wire (R103, R104): its TL byte, then its payload. -/
def elementBytes (c : Cfg) (tag : Tag) (p : List Byte) : List Byte :=
  tlByte tag.code (BitVec.ofNat 4 (p.length + c.tlLenBias)) :: p

/-- `F.REQ a f p2 p3 p4 p5` (R111, R121): the eight bytes of a request with its checksum. -/
def requestBytes (addr func p2 p3 p4 p5 : Byte) : List Byte :=
  withChecksum [addr, func, p2, p3, p4, p5]

/-- The `T` events of a byte list (R120). -/
def teleEvents (p : List Byte) : List Event := p.map .telemetry

/-- The `RX` events of a byte list (R120). -/
def rxEvents (p : List Byte) : List Event := p.map (fun b => .call (.timerRx b))

/-- The `Fq` event of the first byte and the `F` events of the others (R120, R121). -/
def requestEvents : List Byte → List Event
  | [] => []
  | addr :: rest => .fieldbus addr true :: rest.map (fun b => .fieldbus b false)

end Sys2Proof.Machine
end

