-- ==== Sys2Proof/Safety.lean ====
section
/-! DEFINITION. What counts as a safe state and as the observation of a run (spec R33 to R45, R49, D38):
the ranges and sizes the spec gives the state's fields, which every step keeps. -/

namespace Sys2Proof.Machine

/-- The Store's shape (R34, R36, R37). -/
structure Store.Inv (c : Cfg) (st : Store) : Prop where
  live_length : st.live.length = 2 * c.nCodes
  staged_length : st.staged.length = 2 * c.nCodes
  sset_length : st.sset.length = c.nCodes
  det_lt : ∀ k, st.det = some k → k < c.nCodes

/-- The decoder's ranges (R38, R39, R40, R49). -/
structure Dec.Inv (c : Cfg) (d : Dec) : Prop where
  k_lt : d.k < escRun
  j_lt : d.j < beginRun
  t_le : d.t ≤ 1
  depth_le : d.d ≤ c.maxDepth
  level_open : ∀ l ∈ d.lv, l.rd < l.exp ∧ l.exp ≤ 15
  rem_le : d.rem ≤ 15
  buf_le : d.buf.length + d.rem ≤ c.elemBuf
  accum_rem : d.state = .accum → 1 ≤ d.rem

/-- The Slave's ranges (R43, R49). -/
structure Slave.Inv (s : Slave) : Prop where
  buf_length : s.buf.length = frameBuf
  collecting : s.state = .collecting → 1 ≤ s.n ∧ s.n ≤ 6 ∧ s.buf[0]? = some funcRd
  otherwise : s.state ≠ .collecting → s.n = 0

/-- The invariants of R49, with the sizes R34 to R44 give. -/
structure State.Inv (s : State) : Prop where
  cfg_wf : s.cfg.wf = true
  store : s.store.Inv s.cfg
  dec : s.dec.Inv s.cfg
  slv : s.slv.Inv
  tmr : s.tmr.elapsed ≤ s.cfg.tSilent

/-- The observation of a run (R45, D38): the transmit stream, and what `readRegister` returns for every
index of the register file. -/
def State.observation (s : State) : List TxEvent × List (Except Fault Word16) :=
  (s.tx, (List.range (registerCount s.cfg)).map (readRegister s.cfg s.store))

/-- A run ends badly when it stops: the block has no error that stops it (R307). -/
def stops : Host.Outcome State Fault Refusal → Bool
  | .next _ => false
  | .fault _ => true
  | .refused _ => true

end Sys2Proof.Machine
end

