-- ==== Sys2Proof/Certificates/Slice0/Obligations.lean ====
section
/-! DEFINITION. The statements for the provers. Each docstring names the rule of spec/ it formalises.
Every statement about a state holds for every configuration, through the state's field `cfg`. -/

open Sys2Proof Sys2Proof.Machine

/-! ### Encoding and decoding -/

/-- R110, R111, R118, R123: in a context its row applies in, the event the encoder gives for a
well-formed instruction decodes to that instruction. That a call event carries an operation, and a frame
event a request, is the model's choice (log entries 3 and 6). -/
def Obligations.DecodeOfEncode : Prop :=
  ∀ (c : Cfg) (x : Ctx) (i : Instr), c.wf = true → i.wellFormed c = true →
    x.agrees i.rowState = true → decode c x (encode c i) = .ok i

/-- R110: "Every byte value falls in exactly one class per state, so the decoder is total on any byte",
for the telemetry bytes and, by R261 to R263, for the fieldbus bytes. The spec marks this totality as
its own inference (R110, "[derived]"). -/
def Obligations.EveryByteSelectsOneRow : Prop :=
  ∀ (c : Cfg) (x : Ctx) (b : Byte), c.wf = true →
    (∃! i : Instr, i.wellFormed c = true ∧ x.agrees i.rowState = true ∧
      encode c i = .telemetry b) ∧
    (∀ quiet, ∃! i : Instr, i.wellFormed c = true ∧ x.agrees i.rowState = true ∧
      encode c i = .fieldbus b quiet)

/-- Bytes written out from R102, R109, R110 and R111 decode to the rows they stand for, under the
default configuration. The default bytes are the spec's decisions D1, D23 and D31 (log entry 1). -/
def Obligations.SpecWordsDecode : Prop :=
  decodeTelemetry Cfg.default .seekEsc 0x1B = .seekEscEsc ∧
  decodeTelemetry Cfg.default .seekTypeFirst 0x1A = .seekTypeEnd ∧
  decodeTelemetry Cfg.default .inMsg 0x1B = .inMsgEsc ∧
  decodeTelemetry Cfg.default .inMsg 0x77 = .inMsgListPush 7 ∧
  decodeTelemetry Cfg.default .inMsg 0x70 = .inMsgListClose ∧
  decodeTelemetry Cfg.default .inMsg 0x06 = .inMsgOctet 6 ∧
  decodeTelemetry Cfg.default .inMsg 0x54 = .inMsgInt 4 ∧
  decodeTelemetry Cfg.default .inMsg 0x85 = .inMsgIllegal 0x85 ∧
  decodeFieldbus Cfg.default .idle 0x09 true = .idleAddr ∧
  decodeFieldbus Cfg.default .idle 0x09 false = .idleOther 0x09 false ∧
  decodeFrame Cfg.default [0x09, 0x04, 0x01, 0x00, 0x00, 0x03, 0xB0, 0xBF] =
    .ok (.reqReadInputRegisters 0x01 0x00 0x00 0x03 0xB0 0xBF)

/-- R117: a receiver tells the length of every frame the Slave emits: a normal response of `ws.length`
registers, as many as the register file can hold, and an exception response to a function code. -/
def Obligations.ReceiverTellsResponseLength : Prop :=
  ∀ (c : Cfg), c.wf = true →
    (∀ ws : List Word16, ws.length ≤ c.nReg →
      responseLength (withChecksum (responseBody c ws.length ws)) =
        some (withChecksum (responseBody c ws.length ws)).length ∧
      (withChecksum (responseBody c ws.length ws)).length = 3 + 2 * ws.length + 2) ∧
    (∀ func code : Byte,
      responseLength (withChecksum (exceptionBody c func code)) = some 5 ∧
      (withChecksum (exceptionBody c func code)).length = 5)

/-! ### The step -/

/-- R12: when the next event decodes to `i` in the state it meets, the step is `exec i` on the state
with the event taken. That the next event stands in a list the state holds is the model's choice (log
entry 3). -/
def Obligations.StepRunsDecodedInstruction : Prop :=
  ∀ (s : State) (e : Event) (rest : List Event) (i : Instr), s.cfg.wf = true →
    s.events = e :: rest → decode s.cfg s.ctx e = .ok i →
    step s = exec i { s with events := rest }

/-- R319, R10: with no event waiting the state persists unchanged; a configuration that is not well
formed is refused, whatever waits. These are the spec's decisions D39 and D33; the idle step itself is
the model's (log entry 3). -/
def Obligations.StepWithoutEventOrConfiguration : Prop :=
  ∀ s : State,
    (s.cfg.wf = true → s.events = [] → step s = .next s) ∧
    (s.cfg.wf = false → step s = .refused .illFormedConfig)

/-- R200, R110: `feed(b)` has a next state in every state, and it is the one that the row the byte
selects (R110) gives. An inference from R110 and R200 to R223. -/
def Obligations.FeedRunsTheSelectedRow : Prop :=
  ∀ (s : State) (b : Byte), s.cfg.wf = true →
    ∃ t, exec (.decoderFeed b) s = .next t ∧
      exec (decodeTelemetry s.cfg s.ctx.tele b) s = .next t

/-- R260, R110: in every state that keeps the invariants, `onByte(b, quiet)` has a next state, and it is
the one that the row the byte selects gives. An inference from R260 to R263 and R123. -/
def Obligations.OnByteRunsTheSelectedRow : Prop :=
  ∀ (s : State) (b : Byte) (quiet : Bool), s.Inv →
    ∃ t, exec (.slaveOnByte b quiet) s = .next t ∧
      exec (decodeFieldbus s.cfg s.slv.state b quiet) s = .next t

/-- The model's own refusal of a byte row called where it is not selected (log entry 5): a row whose
state differs from the control state, or whose operands it does not admit, is refused by name. -/
def Obligations.UnselectedByteRowRefused : Prop :=
  ∀ (s : State) (i : Instr), i.rowState ≠ .frame → i.rowState ≠ .operation →
    (s.ctx.agrees i.rowState = false ∨ i.wellFormed s.cfg = false) →
    exec i s = .refused .rowNotSelected

/-- R18, R123 through the decoder: the step never meets an unselected row; the one thing it refuses is a
configuration that is not well formed (R10, the spec's decision D33). The refusal of an unselected row is
the model's choice (log entry 5). -/
def Obligations.StepNeverMeetsUnselectedRow : Prop :=
  (∀ s : State, step s ≠ .refused .rowNotSelected) ∧
  ∀ (s : State) (r : Refusal), step s = .refused r → r = .illFormedConfig ∧ s.cfg.wf = false

/-! ### Power-on and invariants -/

/-- R48: every field at its power-on value, for every configuration. These values are the spec's
decisions D16, D21 and D29 (log entry 13). -/
def Obligations.PowerOnValues : Prop :=
  ∀ c : Cfg, let s := State.powerOn c
    s.crcB = 0xFFFF ∧ s.crcA = 0xFFFF ∧
    (∀ i, i < 2 * c.nCodes → s.store.live[i]? = some 0 ∧ s.store.staged[i]? = some 0) ∧
    (∀ k, k < c.nCodes → s.store.sset[k]? = some false) ∧ s.store.det = none ∧
    readRegister c s.store 0 = .ok c.versionHi ∧ readRegister c s.store 1 = .ok c.versionLo ∧
    s.dec.state = .seekEsc ∧ s.dec.k = 0 ∧ s.dec.j = 0 ∧ s.dec.t = 0 ∧ s.dec.d = 0 ∧
    s.dec.tag = .octet ∧ s.dec.rem = 0 ∧ s.dec.buf = [] ∧ s.dec.scale = 0 ∧
    s.dec.snap = 0xFFFF ∧ s.dec.tlo = 0 ∧
    s.slv.state = .idle ∧ s.slv.n = 0 ∧ s.slv.buf = [0, 0, 0, 0, 0, 0, 0] ∧
    s.tmr.elapsed = c.tSilent ∧ s.tx = []

/-- R49: the invariants hold at power-on, for every well-formed configuration, so at `State.reset`. The
spec marks R49 as its own inference. -/
def Obligations.PowerOnKeepsInvariants : Prop :=
  (∀ c : Cfg, c.wf = true → (State.powerOn c).Inv) ∧ State.reset.Inv

/-- R49: "At the end of every step these invariants hold", from every state in which they hold. The spec
marks R49 as its own inference; the sizes of the lists are the model's form of R34 to R43 (log entry
11). -/
def Obligations.StepKeepsInvariants : Prop :=
  ∀ s t : State, s.Inv → step s = .next t → t.Inv

/-- R13: the configuration never changes; so (R35) registers 0 and 1 never do. -/
def Obligations.ConfigurationNeverChanges : Prop :=
  ∀ s t : State, step s = .next t →
    t.cfg = s.cfg ∧ readRegister t.cfg t.store 0 = .ok s.cfg.versionHi ∧
    readRegister t.cfg t.store 1 = .ok s.cfg.versionLo

/-- R45: the block only appends to the transmit stream, and takes the events in their order (R81). The
list of events is the model's choice (log entry 3). -/
def Obligations.TransmitStreamOnlyGrows : Prop :=
  ∀ s t : State, step s = .next t → s.tx <+: t.tx ∧ t.events = s.events.tail

/-- R18, R306, R307: from every state that keeps the invariants, an event the environment may deliver
(R119) has a next state: no fault, no refusal. The spec marks R18 and the last clause of R306 as
inferences. -/
def Obligations.EnvironmentNeverStopsTheBlock : Prop :=
  ∀ (s : State) (e : Event) (rest : List Event), s.Inv → s.events = e :: rest →
    e.fromEnvironment = true → ∃ t, step s = .next t

/-- R306: the one fault is a register read out of range, and only a direct call reaches it: of
`Store.readRegister`, or of a response frame for registers past the last one. The fault is the spec's
decision D30; the direct calls are the model's exposure of internal operations (log entry 8). -/
def Obligations.OnlyOutOfRangeReadFaults : Prop :=
  ∀ (s : State) (f : Fault), s.Inv → step s = .fault f →
    ∃ i, s.cfg.nReg ≤ i ∧ f = .readRegisterOutOfRange i ∧
      (s.events.head? = some (.call (.storeReadRegister i)) ∨
        ∃ start count : Byte, s.cfg.nReg < start.toNat + count.toNat ∧
          s.events.head? = some (.call (.respReadInputRegisters start count)))

/-! ### The CRC-16 Engine -/

/-- R141 to R144: the four operations, on the register of their variant; nothing else changes. That a
returned byte stands in the field `ret` is the model's choice (log entry 7). -/
def Obligations.CrcOperations : Prop :=
  ∀ (s : State) (b : Byte),
    (exec (.crcReset .A) s = .next { s with crcA := 0xFFFF } ∧
      exec (.crcReset .B) s = .next { s with crcB := 0xFFFF }) ∧
    (exec (.crcFeed .A b) s = .next { s with
        crcA := (fun x : Word16 => if x.getLsbD 0 then (x >>> 1) ^^^ 0xA001 else x >>> 1)^[8]
          (s.crcA ^^^ b.setWidth 16) } ∧
      exec (.crcFeed .B b) s = .next { s with
        crcB := (fun x : Word16 => if x.getLsbD 0 then (x >>> 1) ^^^ 0x8408 else x >>> 1)^[8]
          (s.crcB ^^^ b.setWidth 16) }) ∧
    (exec (.crcLowByte .A) s = .next { s with ret := some (.u8 (s.crcA.setWidth 8)) } ∧
      exec (.crcLowByte .B) s =
        .next { s with ret := some (.u8 ((s.crcB ^^^ 0xFFFF).setWidth 8)) }) ∧
    (exec (.crcHighByte .A) s = .next { s with ret := some (.u8 ((s.crcA >>> 8).setWidth 8)) } ∧
      exec (.crcHighByte .B) s =
        .next { s with ret := some (.u8 (((s.crcB ^^^ 0xFFFF) >>> 8).setWidth 8)) })

/-- R146: a byte list followed by its own Variant A checksum leaves residue 0; Variant B has no zero
residue, its register is then 0xF0B8 (vector V-C09) whatever the bytes. The spec marks R146 as its own
inference. -/
def Obligations.ChecksumResidues : Prop :=
  ∀ p : List Byte,
    crcOf .A (p ++ [crcLow .A (crcOf .A p), crcHigh .A (crcOf .A p)]) = 0 ∧
    crcOf .B (p ++ [crcLow .B (crcOf .B p), crcHigh .B (crcOf .B p)]) = 0xF0B8

/-! ### The Register Store -/

/-- R161: flags and slot cleared, live and staged words kept. -/
def Obligations.StoreResetClearsStaging : Prop :=
  ∀ s : State, exec .storeReset s = .next { s with store := { s.store with
    sset := List.replicate s.store.sset.length false, det := none } }

/-- R162, R163: only the slot changes; it names the lowest entry of the code table that equals the first
five bytes of a six-byte string ending in 0xFF, and is clear when there is none. That the lowest entry
wins is the spec's decision D13. -/
def Obligations.PresentCodeDetects : Prop :=
  ∀ (s : State) (p : List Byte), ∃ d : Option Nat,
    exec (.storePresentCode p) s = .next { s with store := { s.store with det := d } } ∧
    (∀ k, d = some k ↔ p.length = 6 ∧ p[5]? = some 0xFF ∧
      s.cfg.codeTable[k]? = some (p.take 5) ∧
      ∀ m, m < k → s.cfg.codeTable[m]? ≠ some (p.take 5))

/-- R164: without a detected code nothing changes; with code `k` detected, the low 32 bits of the value
are staged as pair `k`, high word first, its flag is set and the slot cleared; every other staged word and
flag, the live registers and the rest of the state keep their values. -/
def Obligations.PresentValueStages : Prop :=
  ∀ (s : State) (v : I64), s.store.Inv s.cfg →
    (s.store.det = none → exec (.storePresentValue v) s = .next s) ∧
    (∀ k, s.store.det = some k → ∃ st : Store,
      exec (.storePresentValue v) s = .next { s with store := st } ∧
      st.staged[2 * k]? = some ((v >>> 16).setWidth 16) ∧
      st.staged[2 * k + 1]? = some (v.setWidth 16) ∧
      (∀ i, i ≠ 2 * k → i ≠ 2 * k + 1 → st.staged[i]? = s.store.staged[i]?) ∧
      st.sset[k]? = some true ∧ (∀ m, m ≠ k → st.sset[m]? = s.store.sset[m]?) ∧
      st.det = none ∧ st.live = s.store.live)

/-- R167, R168: the commit of every pair. A staged pair is promoted and its flag cleared, an absent
transient pair is zeroed, an absent persistent pair keeps its words; staged words and slot are kept. -/
def Obligations.CommitUpdatesEveryPair : Prop :=
  ∀ s : State, s.store.Inv s.cfg → ∃ st : Store,
    exec .storeCommit s = .next { s with store := st } ∧
    st.live.length = s.store.live.length ∧
    (∀ k, k < s.cfg.nCodes →
      (s.store.sset[k]? = some true →
        st.live[2 * k]? = s.store.staged[2 * k]? ∧
        st.live[2 * k + 1]? = s.store.staged[2 * k + 1]?) ∧
      (s.store.sset[k]? = some false → s.cfg.pPersist ≤ k →
        st.live[2 * k]? = some 0 ∧ st.live[2 * k + 1]? = some 0) ∧
      (s.store.sset[k]? = some false → k < s.cfg.pPersist →
        st.live[2 * k]? = s.store.live[2 * k]? ∧
        st.live[2 * k + 1]? = s.store.live[2 * k + 1]?)) ∧
    st.sset = List.replicate s.store.sset.length false ∧
    st.staged = s.store.staged ∧ st.det = s.store.det

/-- R169, R170 (R171): the register count, which fits its byte, and what each index of the register file
reads, nothing but the returned value changing; an index at or past the count faults. The fault is the
spec's decision D30; where a returned value stands is the model's choice (log entry 7). -/
def Obligations.RegisterFileReads : Prop :=
  ∀ s : State, s.Inv →
    exec .storeRegisterCount s =
      .next { s with ret := some (.u8 (BitVec.ofNat 8 (2 + 2 * s.cfg.nCodes))) } ∧
    2 + 2 * s.cfg.nCodes < 256 ∧
    exec (.storeReadRegister 0) s = .next { s with ret := some (.u16 s.cfg.versionHi) } ∧
    exec (.storeReadRegister 1) s = .next { s with ret := some (.u16 s.cfg.versionLo) } ∧
    (∀ i, 2 ≤ i → i < 2 + 2 * s.cfg.nCodes → ∃ w, s.store.live[i - 2]? = some w ∧
      exec (.storeReadRegister i) s = .next { s with ret := some (.u16 w) }) ∧
    (∀ i, 2 + 2 * s.cfg.nCodes ≤ i →
      exec (.storeReadRegister i) s = .fault (.readRegisterOutOfRange i))

/-- R162, R164, R166, R167, R170: a code presented, a value presented and a commit make the value's low
32 bits readable as the code's two registers; before the commit no register reads differently. The spec
marks R166 as its own inference; that the lowest entry wins is its decision D13. -/
def Obligations.PresentedValueReadableAfterCommit : Prop :=
  ∀ (s : State) (code : List Byte) (k : Nat) (v : I64), s.Inv →
    s.cfg.codeTable[k]? = some code → (∀ m, m < k → s.cfg.codeTable[m]? ≠ some code) →
    ∃ t1 t2 t3, exec (.storePresentCode (code ++ [0xFF])) s = .next t1 ∧
      exec (.storePresentValue v) t1 = .next t2 ∧ exec .storeCommit t2 = .next t3 ∧
      (∀ i, readRegister t2.cfg t2.store i = readRegister s.cfg s.store i) ∧
      readRegister t3.cfg t3.store (2 + 2 * k) = .ok ((v >>> 16).setWidth 16) ∧
      readRegister t3.cfg t3.store (3 + 2 * k) = .ok (v.setWidth 16)

/-! ### The decoder: framing rows -/

/-- R203: an escape in SEEK_ESC goes into the checksum and is counted; the fourth leads to SEEK_TYPE. -/
def Obligations.SeekEscEscapeCounts : Prop :=
  ∀ s : State, s.dec.state = .seekEsc →
    exec .seekEscEsc s = .next { s with
      crcB := crcStep .B s.crcB s.cfg.escByte
      dec := if s.dec.k + 1 = 4 then { s.dec with k := 0, j := 0, state := .seekType }
        else { s.dec with k := s.dec.k + 1 } }

/-- R204, R205, R206, R208: in SEEK_TYPE a begin byte is counted and the fourth begins the message,
which clears staging, nesting, element and scale and keeps the checksum running; the end marker leads to
END_FILL. It rests on the spec's decisions D2 and D4. -/
def Obligations.SeekTypeBeginsOrEnds : Prop :=
  ∀ s : State, s.dec.state = .seekType →
    (s.dec.j = 0 → exec .seekTypeBegin s = .next { s with
      crcB := crcStep .B s.crcB 0x01, dec := { s.dec with j := 1 } }) ∧
    (s.dec.j = 0 → exec .seekTypeEnd s = .next { s with
      crcB := crcStep .B s.crcB 0x1A, dec := { s.dec with state := .endFill } }) ∧
    (1 ≤ s.dec.j → s.dec.j ≠ 3 → exec .seekTypeBeginN s = .next { s with
      crcB := crcStep .B s.crcB 0x01, dec := { s.dec with j := s.dec.j + 1 } }) ∧
    (s.dec.j = 3 → exec .seekTypeBeginN s = .next { s with
      crcB := crcStep .B s.crcB 0x01
      store := { s.store with sset := List.replicate s.store.sset.length false, det := none }
      dec := { s.dec with lv := [], tag := .octet, rem := 0, buf := [], scale := 0, j := 0,
                          state := .inMsg } })

/-- R202, R203, R204, R205, R207, R222: every byte that fits no valid transition of its state performs
the full decoder reset, and nothing else. It rests on the spec's decisions D3, D7, D20 and D31. -/
def Obligations.DesyncRowsReset : Prop :=
  ∀ (s : State) (b : Byte),
    let t : State := { s with
      crcB := 0xFFFF
      store := { s.store with sset := List.replicate s.store.sset.length false, det := none }
      dec := { state := .seekEsc, k := 0, j := 0, t := 0, lv := [], tag := .octet, rem := 0,
               buf := [], scale := 0, snap := 0xFFFF, tlo := 0 } }
    (s.dec.state = .seekEsc → b ≠ s.cfg.escByte → exec (.seekEscOther b) s = .next t) ∧
    (s.dec.state = .seekType → s.dec.j = 0 → exec .seekTypeEscEsc s = .next t) ∧
    (s.dec.state = .seekType → s.dec.j = 0 → b ≠ 0x01 → b ≠ 0x1A → b ≠ s.cfg.escByte →
      exec (.seekTypeOther b) s = .next t) ∧
    (s.dec.state = .seekType → 1 ≤ s.dec.j → b ≠ 0x01 → exec (.seekTypeOtherN b) s = .next t) ∧
    (s.dec.state = .inMsg → b ≠ s.cfg.escByte →
      b.toNat / 16 ∈ [1, 2, 3, 8, 9, 10, 11, 12, 13, 14, 15] →
      exec (.inMsgIllegal b) s = .next t)

/-- R209, R210: the fill count, whatever its value, goes into the checksum, which is snapshotted; the
first trailer byte is kept and does not. That any fill count is accepted is the spec's decision D5. -/
def Obligations.FillAndFirstTrailerByte : Prop :=
  ∀ (s : State) (b : Byte),
    (s.dec.state = .endFill → exec (.endFillFill b) s = .next { s with
      crcB := crcStep .B s.crcB b
      dec := { s.dec with snap := crcStep .B s.crcB b, t := 0, state := .trailer } }) ∧
    (s.dec.state = .trailer → s.dec.t = 0 → exec (.trailerCrcLo b) s = .next { s with
      dec := { s.dec with tlo := b, t := 1 } })

/-- R211, R303: the second trailer byte commits the Store exactly when the two trailer bytes are the
masked snapshot's, low byte first, and discards the staging otherwise; the decoder then resets fully. It
rests on the spec's decisions D6 and D20. -/
def Obligations.TrailerVerdict : Prop :=
  ∀ (s : State) (b : Byte), s.dec.state = .trailer → s.dec.t ≠ 0 →
    exec (.trailerCrcHi b) s = .next { s with
      crcB := 0xFFFF
      store := { s.store with
        live := if s.dec.tlo = (s.dec.snap ^^^ 0xFFFF).setWidth 8 ∧
            b = ((s.dec.snap ^^^ 0xFFFF) >>> 8).setWidth 8
          then (s.store.commit s.cfg).live else s.store.live
        sset := List.replicate s.store.sset.length false
        det := none }
      dec := Dec.powerOn }

/-! ### The decoder: structural rows -/

/-- R213, R214, R216, R217: an escape at a structural position starts the end sequence with one escape
counted; 0x00 and 0x70 close the current level, which does nothing when no list is open. The no-op is
the spec's decision D10; the escape only at a structural position is D9. -/
def Obligations.EscapeAndCloseRows : Prop :=
  ∀ s : State, s.dec.state = .inMsg →
    exec .inMsgEsc s = .next { s with
      crcB := crcStep .B s.crcB s.cfg.escByte
      dec := { s.dec with state := .seekEsc, k := 1 } } ∧
    (s.dec.lv = [] →
      exec .inMsgZero s = .next { s with crcB := crcStep .B s.crcB 0x00 } ∧
      (s.cfg.escByte ≠ 0x70 →
        exec .inMsgListClose s = .next { s with crcB := crcStep .B s.crcB 0x70 })) ∧
    (∀ l ls, s.dec.lv = l :: ls →
      exec .inMsgZero s = .next { s with
        crcB := crcStep .B s.crcB 0x00, dec := { s.dec with lv := childDone ls } } ∧
      (s.cfg.escByte ≠ 0x70 → exec .inMsgListClose s = .next { s with
        crcB := crcStep .B s.crcB 0x70, dec := { s.dec with lv := childDone ls } }))

/-- R218: counting a child closes exactly the innermost levels it completes, each of which counts as a
child of the next, and stops at the first level that has children left. -/
def Obligations.ChildDoneClosesCompletedLevels : Prop :=
  ∀ full : List Level, (∀ l ∈ full, l.rd + 1 = l.exp) →
    childDone full = [] ∧
    ∀ (l : Level) (rest : List Level), l.rd + 1 ≠ l.exp →
      childDone (full ++ l :: rest) = { exp := l.exp, rd := l.rd + 1 } :: rest

/-- R215, R202: a list opens a level of its child count with no children read; at MAX_DEPTH open levels
the byte resets the decoder. That a reset clears the staging is the spec's decision D20. -/
def Obligations.ListPushOpensLevel : Prop :=
  ∀ (s : State) (n : Nibble), s.dec.state = .inMsg → n ≠ 0 →
    BitVec.ofNat 8 (0x70 + n.toNat) ≠ s.cfg.escByte →
    exec (.inMsgListPush n) s =
      if s.dec.lv.length = s.cfg.maxDepth then .next { s with
        crcB := 0xFFFF
        store := { s.store with sset := List.replicate s.store.sset.length false, det := none }
        dec := Dec.powerOn }
      else .next { s with
        crcB := crcStep .B s.crcB (BitVec.ofNat 8 (0x70 + n.toNat))
        dec := { s.dec with lv := { exp := n.toNat, rd := 0 } :: s.dec.lv } }

/-- R104, R220, R221: a scalar TL byte whose payload length is not 0 starts the accumulation of that
many bytes, or resets the decoder when they would not fit the element buffer. It rests on the spec's
decisions D31 and D37, and D20 for the reset. -/
def Obligations.ScalarRowsStartAccumulating : Prop :=
  ∀ (s : State) (n : Nibble), s.dec.state = .inMsg → s.cfg.tlLenBias < n.toNat →
    ∀ (tag : Tag) (i : Instr) (b : Byte),
      (tag, i, b) ∈ [(Tag.octet, Instr.inMsgOctet n, BitVec.ofNat 8 n.toNat),
        (Tag.bool, Instr.inMsgBool n, BitVec.ofNat 8 (0x40 + n.toNat)),
        (Tag.int, Instr.inMsgInt n, BitVec.ofNat 8 (0x50 + n.toNat)),
        (Tag.uint, Instr.inMsgUint n, BitVec.ofNat 8 (0x60 + n.toNat))] →
      b ≠ s.cfg.escByte →
      exec i s =
        if n.toNat - s.cfg.tlLenBias ≤ s.cfg.elemBuf then .next { s with
          crcB := crcStep .B s.crcB b
          dec := { s.dec with
            tag := tag, rem := n.toNat - s.cfg.tlLenBias, buf := [], state := .accum } }
        else .next { s with
          crcB := 0xFFFF
          store := { s.store with sset := List.replicate s.store.sset.length false, det := none }
          dec := Dec.powerOn }

/-- R104, R219, R224 to R228, R230: an element without payload completes at once, in each of its forms:
the three bytes of length field 0, and with TL_LEN_BIAS = 1 those of length field 1. It counts as a
child when a list is open. At the tracked depth an OctetString at the code position clears the detected
slot, an Integer at the value position presents the value 0; every other one only counts. It rests on
the spec's decisions D11, D12 and D31. -/
def Obligations.InlineElementsComplete : Prop :=
  ∀ (s : State) (tag : Tag) (i : Instr) (b : Byte), s.dec.state = .inMsg →
    ((tag, i, b) ∈ [(Tag.bool, Instr.inMsgBoolEmpty, 0x40), (Tag.int, Instr.inMsgIntEmpty, 0x50),
        (Tag.uint, Instr.inMsgUintEmpty, 0x60)] ∨
      ∃ n : Nibble, n ≠ 0 ∧ n.toNat ≤ s.cfg.tlLenBias ∧
        (tag, i, b) ∈ [(Tag.octet, Instr.inMsgOctet n, BitVec.ofNat 8 n.toNat),
          (Tag.bool, Instr.inMsgBool n, BitVec.ofNat 8 (0x40 + n.toNat)),
          (Tag.int, Instr.inMsgInt n, BitVec.ofNat 8 (0x50 + n.toNat)),
          (Tag.uint, Instr.inMsgUint n, BitVec.ofNat 8 (0x60 + n.toNat))]) →
    b ≠ s.cfg.escByte →
    exec i s = .next { s with
      crcB := crcStep .B s.crcB b
      store :=
        if s.dec.lv.length = s.cfg.codeDepth ∧ tag = .octet ∧
            s.dec.lv.head?.map (·.rd) = some s.cfg.codePos
          then { s.store with det := none }
        else if s.dec.lv.length = s.cfg.codeDepth ∧ tag = .int ∧
            s.dec.lv.head?.map (·.rd) = some s.cfg.valuePos
          then s.store.presentValue (toScale 0 s.dec.scale)
        else s.store
      dec := { s.dec with lv := childDone s.dec.lv } }

/-- R223, R224: in ACCUM every byte is payload. Before the last one it is only appended; the last one,
when no list is open, ends the element with no callback and no count. It rests on the spec's decisions
D9 and D11. -/
def Obligations.PayloadByteCollected : Prop :=
  ∀ (s : State) (b : Byte), s.dec.state = .accum →
    (2 ≤ s.dec.rem → exec (.accumData b) s = .next { s with
      crcB := crcStep .B s.crcB b
      dec := { s.dec with buf := s.dec.buf ++ [b], rem := s.dec.rem - 1 } }) ∧
    (s.dec.rem = 1 → s.dec.lv = [] → exec (.accumData b) s = .next { s with
      crcB := crcStep .B s.crcB b
      dec := { s.dec with buf := s.dec.buf ++ [b], rem := 0, state := .inMsg } })

/-- R224 to R228, R230: the last payload byte completes the element. With a list open, the element is
one child more; at the tracked depth an OctetString at the code position is presented as a code, a
one-byte Integer at the scale position becomes the scale, an Integer at the value position is scaled and
presented; every other element only counts. It rests on the spec's decisions D11, D12, D15 and D16. -/
def Obligations.LastPayloadByteCompletesElement : Prop :=
  ∀ (s : State) (b : Byte) (p : List Byte) (l : Level) (ls : List Level),
    s.dec.state = .accum → s.dec.rem = 1 → s.dec.buf ++ [b] = p → s.dec.lv = l :: ls →
    s.cfg.scalePos ≠ s.cfg.valuePos →
    exec (.accumData b) s = .next { s with
      crcB := crcStep .B s.crcB b
      store :=
        if s.dec.lv.length = s.cfg.codeDepth ∧ s.dec.tag = .octet ∧ l.rd = s.cfg.codePos
          then s.store.presentCode s.cfg p
        else if s.dec.lv.length = s.cfg.codeDepth ∧ s.dec.tag = .int ∧ l.rd = s.cfg.valuePos
          then s.store.presentValue (toScale (intValue p) s.dec.scale)
        else s.store
      dec := { s.dec with
        buf := p, rem := 0, state := .inMsg, lv := childDone (l :: ls)
        scale :=
          if s.dec.lv.length = s.cfg.codeDepth ∧ s.dec.tag = .int ∧ l.rd = s.cfg.scalePos ∧
              p = [b]
            then b else s.dec.scale } }

/-- R103, R104, R220, R223, R224: a scalar element on the wire, its TL byte and its payload whatever the
bytes, is completed with exactly that payload. It rests on the spec's decisions D9 and D31. -/
def Obligations.ScalarElementDeliversItsPayload : Prop :=
  ∀ (s : State) (tag : Tag) (p : List Byte), s.dec.state = .inMsg → p ≠ [] →
    p.length + s.cfg.tlLenBias ≤ 15 → p.length ≤ s.cfg.elemBuf →
    (elementBytes s.cfg tag p).head? ≠ some s.cfg.escByte →
    feedAll (elementBytes s.cfg tag p) s =
      completeElement tag p { s with
        crcB := crcFold .B s.crcB (elementBytes s.cfg tag p)
        dec := { s.dec with tag := tag, rem := 0, buf := p, state := .accum } }

/-! ### The decoder: arithmetic -/

/-- R107: an empty Integer is 0; up to eight bytes are the big-endian two's-complement number; of nine
or more, the last eight bytes decide. The big-endian order and the clause for nine or more bytes are the
spec's decision D17. -/
def Obligations.IntegerPayloadValue : Prop :=
  intValue [] = 0 ∧
  (∀ (b : Byte) (p : List Byte), p.length ≤ 7 →
    (intValue (b :: p)).toInt = b.toInt * 256 ^ p.length + (beNat p : Int)) ∧
  (∀ p q : List Byte, q.length = 8 → intValue (p ++ q) = intValue q)

/-- The exact quotient `v / m`, rounded half away from zero. -/
def Sys2Proof.roundedQuotient (v : Int) (m : Nat) : Int :=
  if 0 ≤ v then (2 * v + m) / (2 * m) else -((2 * -v + m) / (2 * m))

/-- R229: for a scaler −n, `toScale` gives "the exact quotient rounded half away from zero", truncated
to 32 bits and sign-extended. The spec gives it as a corner case that it infers from the loop. -/
def Obligations.ToScaleRoundsExactQuotient : Prop :=
  ∀ (v : I64) (scaler : BitVec 8) (n : Nat), scaler.toInt = -(n : Int) → 1 ≤ n →
    toScale v scaler =
      (BitVec.ofInt 32 (Sys2Proof.roundedQuotient v.toInt (10 ^ n))).signExtend 64

/-- R229: for a scaler n ≥ 0, `toScale` gives the exact product with 10^n, truncated to 32 bits and
sign-extended: the wrap at 64 bits cannot be seen. The spec marks the clause on the wrap as its own
inference, over its decision D18. -/
def Obligations.ToScaleMultiplies : Prop :=
  ∀ (v : I64) (scaler : BitVec 8) (n : Nat), scaler.toInt = (n : Int) →
    toScale v scaler = (BitVec.ofInt 32 (v.toInt * 10 ^ n)).signExtend 64

/-! ### The decoder: messages -/

/-- R101, R203 to R206: from SEEK_ESC with no escape counted, the begin sequence begins a message, with
all eight bytes in the checksum. It rests on the spec's decisions D2 and D4. -/
def Obligations.BeginSequenceBeginsMessage : Prop :=
  ∀ s : State, s.dec.state = .seekEsc → s.dec.k = 0 →
    feedAll (beginSequence s.cfg) s = { s with
      crcB := crcFold .B s.crcB (beginSequence s.cfg)
      store := { s.store with sset := List.replicate s.store.sset.length false, det := none }
      dec := { s.dec with lv := [], tag := .octet, rem := 0, buf := [], scale := 0, k := 0, j := 0,
                          state := .inMsg } }

/-- R101, R145, R200 to R211: a whole message whose elements leave the decoder at a structural position,
with the running checksum over exactly the begin sequence and the elements (so that no reset came on the
way), commits what its elements staged, and resets the decoder. It rests on the spec's decisions D4, D5,
D6 and D8. -/
def Obligations.WholeMessageCommits : Prop :=
  ∀ (s m : State) (elements : List Byte) (fill : Byte),
    feedAll (beginSequence s.cfg ++ elements) s = m → m.dec.state = .inMsg →
    m.crcB = crcOf .B (beginSequence s.cfg ++ elements) →
    feedAll (messageBytes s.cfg elements fill) s = fullReset (m.setStore (m.store.commit m.cfg))

/-- R211, R303: an end sequence after which the two trailer bytes are not the checksum leaves the live
registers alone and discards what was staged. It rests on the spec's decisions D6 and D20. -/
def Obligations.WrongTrailerDiscards : Prop :=
  ∀ (s : State) (fill lo hi : Byte), s.dec.state = .inMsg →
    [lo, hi] ≠ [crcLow .B (crcFold .B s.crcB (endSequence s.cfg fill)),
      crcHigh .B (crcFold .B s.crcB (endSequence s.cfg fill))] →
    feedAll (endSequence s.cfg fill ++ [lo, hi]) s = fullReset s

/-- R233: the live registers change only in the commit of a verified trailer, or in a direct call of
`Store.commit`. The spec marks R233 as its own inference; the direct call is the model's exposure of an
internal operation (log entry 8). -/
def Obligations.LiveRegistersChangeOnlyOnVerifiedCommit : Prop :=
  ∀ s t : State, step s = .next t → t.store.live ≠ s.store.live →
    t.store.live = (s.store.commit s.cfg).live ∧
    (s.events.head? = some (.call .storeCommit) ∨
      ∃ b : Byte, s.dec.state = .trailer ∧ s.dec.t ≠ 0 ∧
        s.dec.tlo = (s.dec.snap ^^^ 0xFFFF).setWidth 8 ∧
        b = ((s.dec.snap ^^^ 0xFFFF) >>> 8).setWidth 8 ∧
        (s.events.head? = some (.telemetry b) ∨ s.events.head? = some (.call (.decoderFeed b))))

/-- R307, under the default configuration (log entry 1): begin sequences fed one after another begin a
message within 32 bytes, from every state that keeps the invariants: before some byte number `m < 32`
the decoder waits for the last begin byte. The spec marks the bound as its own inference. -/
def Obligations.BeginsWithinThirtyTwoBytes : Prop :=
  ∀ s : State, s.Inv → s.cfg = Cfg.default →
    ∃ m, m < 32 ∧ m % 8 = 7 ∧
      (let t := feedAll (((List.replicate 4 (beginSequence s.cfg)).flatten).take m) s
       t.dec.state = .seekType ∧ t.dec.j = 3 ∧
       (feed beginByte t).dec.state = .inMsg ∧ (feed beginByte t).dec.lv = [])

/-! ### Separation of the two engines -/

/-- R12, R32, R81, R172: a telemetry byte reads and writes nothing of the Slave's: whatever the Slave,
its checksum, the timer and the transmit stream hold, they keep it, and the decoder and the Store do the
same. One checksum register per engine is the spec's decision D42. -/
def Obligations.DecoderIndependentOfSlave : Prop :=
  ∀ (s t : State) (b : Byte), t.cfg = s.cfg → t.crcB = s.crcB → t.store = s.store → t.dec = s.dec →
    ∃ s' t', exec (.decoderFeed b) s = .next s' ∧ exec (.decoderFeed b) t = .next t' ∧
      t'.crcB = s'.crcB ∧ t'.store = s'.store ∧ t'.dec = s'.dec ∧
      s' = { s with crcB := s'.crcB, store := s'.store, dec := s'.dec } ∧
      t' = { t with crcB := t'.crcB, store := t'.store, dec := t'.dec }

/-- R172, R302: no event of the fieldbus or the timer writes the decoder, its checksum or the Store. One
checksum register per engine is the spec's decision D42; the response rows as calls are the model's
choice (log entry 6). -/
def Obligations.FieldbusNeverWritesStoreOrDecoder : Prop :=
  ∀ (s t : State) (e : Event) (rest : List Event), s.events = e :: rest → step s = .next t →
    ((∃ b quiet, e = .fieldbus b quiet) ∨ (∃ bytes, e = .frame bytes) ∨
      (∃ b quiet, e = .call (.slaveOnByte b quiet)) ∨ e = .call .timerTick ∨
      (∃ b, e = .call (.timerRx b)) ∨ e = .call .respExcIllegalDataAddress ∨
      (∃ func, e = .call (.respExcIllegalFunction func)) ∨
      (∃ start count, e = .call (.respReadInputRegisters start count))) →
    t.crcB = s.crcB ∧ t.store = s.store ∧ t.dec = s.dec ∧ t.cfg = s.cfg ∧ t.ret = s.ret

/-! ### The Slave -/

/-- R261, R262: the address filter and the function filter, whatever the quiet flag in ADDR_MATCHED. It
rests on the spec's decisions D25 and D26. -/
def Obligations.AddressAndFunctionFilters : Prop :=
  ∀ (s : State) (b : Byte) (quiet : Bool),
    (s.slv.state = .idle → exec .idleAddr s = .next { s with
      slv := { s.slv with state := .addrMatched } }) ∧
    (s.slv.state = .idle → (quiet = false ∨ b ≠ s.cfg.devAddr) →
      exec (.idleOther b quiet) s = .next s) ∧
    (s.slv.state = .addrMatched → exec (.addrMatchedFunc quiet) s = .next { s with
      slv := { state := .collecting, buf := s.slv.buf.set 0 0x04, n := 1 } }) ∧
    (s.slv.state = .addrMatched → b ≠ 0x04 → exec (.addrMatchedOther b quiet) s = .next { s with
      slv := { s.slv with state := .idle } })

/-- R268: the six tests of a request. -/
def Sys2Proof.requestInRange (c : Cfg) (paramHi start countHi count : Byte) : Prop :=
  paramHi = c.paramHi ∧ countHi = 0 ∧ start.toNat < 2 + 2 * c.nCodes ∧ count ≠ 0 ∧
    start.toNat + count.toNat ≤ 2 + 2 * c.nCodes

/-- R263 to R266, R268 to R272, for the byte's row and for `onByte`: in COLLECTING a byte that is not the
seventh is stored, whatever its value. The seventh byte ends the frame and the Slave is in IDLE. With a
wrong checksum the frame is dropped and nothing is sent; with a right one, under the invariants, the
answer is the gap and the normal response with the registers' words when the request is in range, and
the gap and exception 0x02 when it is not. It rests on the spec's decisions D24, D25, D27, D28 and D36. -/
def Obligations.CollectedByteStoredOrFrameDropped : Prop :=
  ∀ (s : State) (b : Byte) (quiet : Bool) (i : Instr), s.slv.state = .collecting →
    i ∈ [Instr.collectingData b quiet, Instr.slaveOnByte b quiet] →
    (s.slv.n ≠ 6 → exec i s = .next { s with
      slv := { s.slv with buf := s.slv.buf.set s.slv.n b, n := s.slv.n + 1 } }) ∧
    (∀ b0 b1 b2 b3 b4 lo x : Byte, s.slv.n = 6 → s.slv.buf = [b0, b1, b2, b3, b4, lo, x] →
      [lo, b] ≠ [crcLow .A (crcOf .A [s.cfg.devAddr, b0, b1, b2, b3, b4]),
        crcHigh .A (crcOf .A [s.cfg.devAddr, b0, b1, b2, b3, b4])] →
      exec i s = .next { s with
        crcA := crcOf .A [s.cfg.devAddr, b0, b1, b2, b3, b4]
        slv := { state := .idle, buf := [b0, b1, b2, b3, b4, lo, b], n := 0 } }) ∧
    (∀ paramHi start countHi count lo x : Byte, s.Inv → s.slv.n = 6 →
      s.slv.buf = [0x04, paramHi, start, countHi, count, lo, x] →
      let req : List Byte := [s.cfg.devAddr, 0x04, paramHi, start, countHi, count]
      [lo, b] = [crcLow .A (crcOf .A req), crcHigh .A (crcOf .A req)] →
      (Sys2Proof.requestInRange s.cfg paramHi start countHi count →
        ∃ ws : List Word16, ws.length = count.toNat ∧
          (∀ j w, ws[j]? = some w → readRegister s.cfg s.store (start.toNat + j) = .ok w) ∧
          (let body : List Byte := [s.cfg.devAddr, 0x04, BitVec.ofNat 8 (2 * count.toNat)] ++
              ws.flatMap (fun w : Word16 => [(w >>> 8).setWidth 8, w.setWidth 8])
           exec i s = .next { s with
            crcA := crcOf .A body
            tx := s.tx ++ [TxEvent.gap] ++ (body ++ [crcLow .A (crcOf .A body),
              crcHigh .A (crcOf .A body)]).map TxEvent.byte
            slv := { state := .idle, n := 0
                     buf := [0x04, paramHi, start, countHi, count, lo, b] } })) ∧
      (¬ Sys2Proof.requestInRange s.cfg paramHi start countHi count →
        let body : List Byte := [s.cfg.devAddr, 0x84, 0x02]
        exec i s = .next { s with
          crcA := crcOf .A body
          tx := s.tx ++ [TxEvent.gap] ++ (body ++ [crcLow .A (crcOf .A body),
            crcHigh .A (crcOf .A body)]).map TxEvent.byte
          slv := { state := .idle, n := 0
                   buf := [0x04, paramHi, start, countHi, count, lo, b] } }))

/-- R111, R113, R264, R268 to R270, R272, R275: a request frame with a right checksum for registers in
range, met in IDLE, is answered by the gap and the normal response with the registers' words, high byte
first, and its checksum; the Slave is in IDLE again and nothing else changes. It rests on the spec's
decisions D24, D27, D28 and D36; the frame in one step is the model's choice (log entry 6). -/
def Obligations.RequestAnsweredWithRegisters : Prop :=
  ∀ (s : State) (paramHi start countHi count : Byte), s.Inv → s.slv.state = .idle →
    Sys2Proof.requestInRange s.cfg paramHi start countHi count →
    let req : List Byte := [s.cfg.devAddr, 0x04, paramHi, start, countHi, count]
    ∃ ws : List Word16, ws.length = count.toNat ∧
      (∀ j w, ws[j]? = some w → readRegister s.cfg s.store (start.toNat + j) = .ok w) ∧
      (let body : List Byte := [s.cfg.devAddr, 0x04, BitVec.ofNat 8 (2 * count.toNat)] ++
          ws.flatMap (fun w : Word16 => [(w >>> 8).setWidth 8, w.setWidth 8])
       exec (.reqReadInputRegisters paramHi start countHi count
          (crcLow .A (crcOf .A req)) (crcHigh .A (crcOf .A req))) s = .next { s with
        crcA := crcOf .A body
        tx := s.tx ++ [TxEvent.gap] ++ (body ++ [crcLow .A (crcOf .A body),
          crcHigh .A (crcOf .A body)]).map TxEvent.byte
        slv := { state := .idle, n := 0
                 buf := [0x04, paramHi, start, countHi, count, crcLow .A (crcOf .A req),
                   crcHigh .A (crcOf .A req)] } })

/-- R268, R271, R276, R272: the same request out of range is answered by the gap and exception 0x02. It
rests on the spec's decisions D24, D28 and D36; the frame in one step is the model's choice (log entry
6). -/
def Obligations.RequestOutOfRangeAnsweredWithException : Prop :=
  ∀ (s : State) (paramHi start countHi count : Byte), s.slv.buf.length = 7 →
    s.slv.state = .idle → ¬ Sys2Proof.requestInRange s.cfg paramHi start countHi count →
    let req : List Byte := [s.cfg.devAddr, 0x04, paramHi, start, countHi, count]
    let body : List Byte := [s.cfg.devAddr, 0x84, 0x02]
    exec (.reqReadInputRegisters paramHi start countHi count
        (crcLow .A (crcOf .A req)) (crcHigh .A (crcOf .A req))) s = .next { s with
      crcA := crcOf .A body
      tx := s.tx ++ [TxEvent.gap] ++ (body ++ [crcLow .A (crcOf .A body),
        crcHigh .A (crcOf .A body)]).map TxEvent.byte
      slv := { state := .idle, n := 0
               buf := [0x04, paramHi, start, countHi, count, crcLow .A (crcOf .A req),
                 crcHigh .A (crcOf .A req)] } }

/-- R265, R309: a request with a wrong checksum, met in IDLE, is dropped whatever it asks: nothing is
sent and no exception, and the Slave is in IDLE. The frame in one step is the model's choice (log entry
6). -/
def Obligations.RequestWithBadChecksumDropped : Prop :=
  ∀ (s : State) (paramHi start countHi count lo hi : Byte), s.slv.buf.length = 7 →
    s.slv.state = .idle →
    let req : List Byte := [s.cfg.devAddr, 0x04, paramHi, start, countHi, count]
    [lo, hi] ≠ [crcLow .A (crcOf .A req), crcHigh .A (crcOf .A req)] →
    exec (.reqReadInputRegisters paramHi start countHi count lo hi) s = .next { s with
      crcA := crcOf .A req
      slv := { state := .idle, n := 0, buf := [0x04, paramHi, start, countHi, count, lo, hi] } }

/-- R114, R267, R271, R276: the two exception responses: the gap, the frame and its checksum. The gap is
the spec's decision D28, the first of them the branch D41 keeps; calling a response row by itself is the
model's choice (log entry 6). -/
def Obligations.ExceptionResponsesEmitted : Prop :=
  ∀ (s : State) (func : Byte),
    (let body : List Byte := [s.cfg.devAddr, func ||| 0x80, 0x01]
     exec (.respExcIllegalFunction func) s = .next { s with
      crcA := crcOf .A body
      tx := s.tx ++ [TxEvent.gap] ++ (body ++ [crcLow .A (crcOf .A body),
        crcHigh .A (crcOf .A body)]).map TxEvent.byte }) ∧
    (let body : List Byte := [s.cfg.devAddr, 0x84, 0x02]
     exec .respExcIllegalDataAddress s = .next { s with
      crcA := crcOf .A body
      tx := s.tx ++ [TxEvent.gap] ++ (body ++ [crcLow .A (crcOf .A body),
        crcHigh .A (crcOf .A body)]).map TxEvent.byte })

/-- R113, R269, R270, R275: the emission of the normal response for registers in range. It rests on the
spec's decisions D27 and D28; calling a response row by itself is the model's choice (log entry 6). -/
def Obligations.NormalResponseEmitted : Prop :=
  ∀ (s : State) (start count : Byte), s.store.live.length = 2 * s.cfg.nCodes →
    start.toNat + count.toNat ≤ 2 + 2 * s.cfg.nCodes →
    ∃ ws : List Word16, ws.length = count.toNat ∧
      (∀ j w, ws[j]? = some w → readRegister s.cfg s.store (start.toNat + j) = .ok w) ∧
      (let body : List Byte := [s.cfg.devAddr, 0x04, BitVec.ofNat 8 (2 * count.toNat)] ++
          ws.flatMap (fun w : Word16 => [(w >>> 8).setWidth 8, w.setWidth 8])
       exec (.respReadInputRegisters start count) s = .next { s with
        crcA := crcOf .A body
        tx := s.tx ++ [TxEvent.gap] ++ (body ++ [crcLow .A (crcOf .A body),
          crcHigh .A (crcOf .A body)]).map TxEvent.byte })

/-- R267, R269, R305: on the wire the Slave never emits exception 0x01: from every state that keeps the
invariants, an event from the environment appends nothing, one normal response that carries consecutive
registers as they read before the event, or exception 0x02. The spec marks this clause of R267 as its own
inference. -/
def Obligations.IllegalFunctionNeverEmitted : Prop :=
  ∀ (s t : State) (e : Event) (rest : List Event), s.Inv → s.events = e :: rest →
    e.fromEnvironment = true → step s = .next t →
    t.tx = s.tx ∨
    (∃ (start : Nat) (ws : List Word16), ws ≠ [] ∧
      (∀ j w, ws[j]? = some w → readRegister s.cfg s.store (start + j) = .ok w) ∧
      t.tx = s.tx ++ frameEvents (withChecksum (responseBody s.cfg ws.length ws))) ∨
    t.tx = s.tx ++ frameEvents (withChecksum [s.cfg.devAddr, 0x84, 0x02])

/-- R278: outside IDLE the quiet flag of a byte makes no difference. It is the spec's decision D25. -/
def Obligations.QuietIgnoredOutsideIdle : Prop :=
  ∀ (s : State) (b : Byte), s.slv.state ≠ .idle →
    exec (.slaveOnByte b true) s = exec (.slaveOnByte b false) s

/-! ### The silence timer -/

/-- R273: a tick counts up to T_SILENT and no further, and changes nothing else. It rests on the spec's
decisions D25 and D29. -/
def Obligations.TickCountsToSilentInterval : Prop :=
  ∀ s : State, exec .timerTick s = .next { s with
    tmr := { elapsed := if s.tmr.elapsed < s.cfg.tSilent then s.tmr.elapsed + 1
      else s.tmr.elapsed } }

/-- R274: `rx(b)` has a next state from every state that keeps the invariants: the timer is 0, and the
rest is what `onByte` gives for the quiet flag of the ticks since the last byte. It rests on the spec's
decision D29. -/
def Obligations.RxComputesQuietAndResetsTimer : Prop :=
  ∀ (s : State) (b : Byte), s.Inv → ∃ t,
    exec (.timerRx b) s = .next t ∧ t.tmr.elapsed = 0 ∧
    exec (.slaveOnByte b (decide (s.cfg.tSilent ≤ s.tmr.elapsed)))
      { s with tmr := { elapsed := 0 } } = .next t

/-! ### Whole frames -/

/-- R121, R116, R122: a frame event, a request or not, is the byte events it expands into: the step that
takes it ends as the steps that take its first byte as quiet and the others as not quiet, one after
another, in every state whatever the Slave is doing. The expansion is the spec's decision D40; that one
step takes the whole frame is the model's choice (log entries 6 and 9). -/
def Obligations.FrameIsItsByteEvents : Prop :=
  ∀ (s : State) (bytes : List Byte) (rest : List Event), s.cfg.wf = true →
    step { s with events := Event.frame bytes :: rest } =
      Sys2Proof.core.run bytes.length { s with events := requestEvents bytes ++ rest }
end

