-- ==== Sys2Proof/Laws/State.lean ====
section
/-! SUPPORT. One lemma per field per update of the state, so that no proof unfolds a record update. -/

namespace Sys2Proof.Machine

@[simp] theorem State.setCrcA_cfg (x : Word16) (s : State) : (s.setCrcA x).cfg = s.cfg := rfl
@[simp] theorem State.setCrcA_crcB (x : Word16) (s : State) : (s.setCrcA x).crcB = s.crcB := rfl
@[simp] theorem State.setCrcA_store (x : Word16) (s : State) : (s.setCrcA x).store = s.store := rfl
@[simp] theorem State.setCrcA_dec (x : Word16) (s : State) : (s.setCrcA x).dec = s.dec := rfl
@[simp] theorem State.setCrcA_crcA (x : Word16) (s : State) : (s.setCrcA x).crcA = x := rfl
@[simp] theorem State.setCrcA_slv (x : Word16) (s : State) : (s.setCrcA x).slv = s.slv := rfl
@[simp] theorem State.setCrcA_tmr (x : Word16) (s : State) : (s.setCrcA x).tmr = s.tmr := rfl
@[simp] theorem State.setCrcA_tx (x : Word16) (s : State) : (s.setCrcA x).tx = s.tx := rfl
@[simp] theorem State.setCrcA_events (x : Word16) (s : State) : (s.setCrcA x).events = s.events := rfl
@[simp] theorem State.setCrcA_ret (x : Word16) (s : State) : (s.setCrcA x).ret = s.ret := rfl
@[simp] theorem State.setCrcA_setCrcA (x y : Word16) (s : State) : (s.setCrcA x).setCrcA y = s.setCrcA y := rfl
@[simp] theorem State.setCrcA_self (s : State) : s.setCrcA s.crcA = s := rfl

@[simp] theorem State.setCrcB_cfg (x : Word16) (s : State) : (s.setCrcB x).cfg = s.cfg := rfl
@[simp] theorem State.setCrcB_crcB (x : Word16) (s : State) : (s.setCrcB x).crcB = x := rfl
@[simp] theorem State.setCrcB_store (x : Word16) (s : State) : (s.setCrcB x).store = s.store := rfl
@[simp] theorem State.setCrcB_dec (x : Word16) (s : State) : (s.setCrcB x).dec = s.dec := rfl
@[simp] theorem State.setCrcB_crcA (x : Word16) (s : State) : (s.setCrcB x).crcA = s.crcA := rfl
@[simp] theorem State.setCrcB_slv (x : Word16) (s : State) : (s.setCrcB x).slv = s.slv := rfl
@[simp] theorem State.setCrcB_tmr (x : Word16) (s : State) : (s.setCrcB x).tmr = s.tmr := rfl
@[simp] theorem State.setCrcB_tx (x : Word16) (s : State) : (s.setCrcB x).tx = s.tx := rfl
@[simp] theorem State.setCrcB_events (x : Word16) (s : State) : (s.setCrcB x).events = s.events := rfl
@[simp] theorem State.setCrcB_ret (x : Word16) (s : State) : (s.setCrcB x).ret = s.ret := rfl
@[simp] theorem State.setCrcB_setCrcB (x y : Word16) (s : State) : (s.setCrcB x).setCrcB y = s.setCrcB y := rfl
@[simp] theorem State.setCrcB_self (s : State) : s.setCrcB s.crcB = s := rfl

@[simp] theorem State.setStore_cfg (x : Store) (s : State) : (s.setStore x).cfg = s.cfg := rfl
@[simp] theorem State.setStore_crcB (x : Store) (s : State) : (s.setStore x).crcB = s.crcB := rfl
@[simp] theorem State.setStore_store (x : Store) (s : State) : (s.setStore x).store = x := rfl
@[simp] theorem State.setStore_dec (x : Store) (s : State) : (s.setStore x).dec = s.dec := rfl
@[simp] theorem State.setStore_crcA (x : Store) (s : State) : (s.setStore x).crcA = s.crcA := rfl
@[simp] theorem State.setStore_slv (x : Store) (s : State) : (s.setStore x).slv = s.slv := rfl
@[simp] theorem State.setStore_tmr (x : Store) (s : State) : (s.setStore x).tmr = s.tmr := rfl
@[simp] theorem State.setStore_tx (x : Store) (s : State) : (s.setStore x).tx = s.tx := rfl
@[simp] theorem State.setStore_events (x : Store) (s : State) : (s.setStore x).events = s.events := rfl
@[simp] theorem State.setStore_ret (x : Store) (s : State) : (s.setStore x).ret = s.ret := rfl
@[simp] theorem State.setStore_setStore (x y : Store) (s : State) : (s.setStore x).setStore y = s.setStore y := rfl
@[simp] theorem State.setStore_self (s : State) : s.setStore s.store = s := rfl

@[simp] theorem State.setDec_cfg (x : Dec) (s : State) : (s.setDec x).cfg = s.cfg := rfl
@[simp] theorem State.setDec_crcB (x : Dec) (s : State) : (s.setDec x).crcB = s.crcB := rfl
@[simp] theorem State.setDec_store (x : Dec) (s : State) : (s.setDec x).store = s.store := rfl
@[simp] theorem State.setDec_dec (x : Dec) (s : State) : (s.setDec x).dec = x := rfl
@[simp] theorem State.setDec_crcA (x : Dec) (s : State) : (s.setDec x).crcA = s.crcA := rfl
@[simp] theorem State.setDec_slv (x : Dec) (s : State) : (s.setDec x).slv = s.slv := rfl
@[simp] theorem State.setDec_tmr (x : Dec) (s : State) : (s.setDec x).tmr = s.tmr := rfl
@[simp] theorem State.setDec_tx (x : Dec) (s : State) : (s.setDec x).tx = s.tx := rfl
@[simp] theorem State.setDec_events (x : Dec) (s : State) : (s.setDec x).events = s.events := rfl
@[simp] theorem State.setDec_ret (x : Dec) (s : State) : (s.setDec x).ret = s.ret := rfl
@[simp] theorem State.setDec_setDec (x y : Dec) (s : State) : (s.setDec x).setDec y = s.setDec y := rfl
@[simp] theorem State.setDec_self (s : State) : s.setDec s.dec = s := rfl

@[simp] theorem State.setSlv_cfg (x : Slave) (s : State) : (s.setSlv x).cfg = s.cfg := rfl
@[simp] theorem State.setSlv_crcB (x : Slave) (s : State) : (s.setSlv x).crcB = s.crcB := rfl
@[simp] theorem State.setSlv_store (x : Slave) (s : State) : (s.setSlv x).store = s.store := rfl
@[simp] theorem State.setSlv_dec (x : Slave) (s : State) : (s.setSlv x).dec = s.dec := rfl
@[simp] theorem State.setSlv_crcA (x : Slave) (s : State) : (s.setSlv x).crcA = s.crcA := rfl
@[simp] theorem State.setSlv_slv (x : Slave) (s : State) : (s.setSlv x).slv = x := rfl
@[simp] theorem State.setSlv_tmr (x : Slave) (s : State) : (s.setSlv x).tmr = s.tmr := rfl
@[simp] theorem State.setSlv_tx (x : Slave) (s : State) : (s.setSlv x).tx = s.tx := rfl
@[simp] theorem State.setSlv_events (x : Slave) (s : State) : (s.setSlv x).events = s.events := rfl
@[simp] theorem State.setSlv_ret (x : Slave) (s : State) : (s.setSlv x).ret = s.ret := rfl
@[simp] theorem State.setSlv_setSlv (x y : Slave) (s : State) : (s.setSlv x).setSlv y = s.setSlv y := rfl
@[simp] theorem State.setSlv_self (s : State) : s.setSlv s.slv = s := rfl

@[simp] theorem State.setTmr_cfg (x : Timer) (s : State) : (s.setTmr x).cfg = s.cfg := rfl
@[simp] theorem State.setTmr_crcB (x : Timer) (s : State) : (s.setTmr x).crcB = s.crcB := rfl
@[simp] theorem State.setTmr_store (x : Timer) (s : State) : (s.setTmr x).store = s.store := rfl
@[simp] theorem State.setTmr_dec (x : Timer) (s : State) : (s.setTmr x).dec = s.dec := rfl
@[simp] theorem State.setTmr_crcA (x : Timer) (s : State) : (s.setTmr x).crcA = s.crcA := rfl
@[simp] theorem State.setTmr_slv (x : Timer) (s : State) : (s.setTmr x).slv = s.slv := rfl
@[simp] theorem State.setTmr_tmr (x : Timer) (s : State) : (s.setTmr x).tmr = x := rfl
@[simp] theorem State.setTmr_tx (x : Timer) (s : State) : (s.setTmr x).tx = s.tx := rfl
@[simp] theorem State.setTmr_events (x : Timer) (s : State) : (s.setTmr x).events = s.events := rfl
@[simp] theorem State.setTmr_ret (x : Timer) (s : State) : (s.setTmr x).ret = s.ret := rfl
@[simp] theorem State.setTmr_setTmr (x y : Timer) (s : State) : (s.setTmr x).setTmr y = s.setTmr y := rfl
@[simp] theorem State.setTmr_self (s : State) : s.setTmr s.tmr = s := rfl

@[simp] theorem State.setTx_cfg (x : List TxEvent) (s : State) : (s.setTx x).cfg = s.cfg := rfl
@[simp] theorem State.setTx_crcB (x : List TxEvent) (s : State) : (s.setTx x).crcB = s.crcB := rfl
@[simp] theorem State.setTx_store (x : List TxEvent) (s : State) : (s.setTx x).store = s.store := rfl
@[simp] theorem State.setTx_dec (x : List TxEvent) (s : State) : (s.setTx x).dec = s.dec := rfl
@[simp] theorem State.setTx_crcA (x : List TxEvent) (s : State) : (s.setTx x).crcA = s.crcA := rfl
@[simp] theorem State.setTx_slv (x : List TxEvent) (s : State) : (s.setTx x).slv = s.slv := rfl
@[simp] theorem State.setTx_tmr (x : List TxEvent) (s : State) : (s.setTx x).tmr = s.tmr := rfl
@[simp] theorem State.setTx_tx (x : List TxEvent) (s : State) : (s.setTx x).tx = x := rfl
@[simp] theorem State.setTx_events (x : List TxEvent) (s : State) : (s.setTx x).events = s.events := rfl
@[simp] theorem State.setTx_ret (x : List TxEvent) (s : State) : (s.setTx x).ret = s.ret := rfl
@[simp] theorem State.setTx_setTx (x y : List TxEvent) (s : State) : (s.setTx x).setTx y = s.setTx y := rfl
@[simp] theorem State.setTx_self (s : State) : s.setTx s.tx = s := rfl

@[simp] theorem State.setEvents_cfg (x : List Event) (s : State) : (s.setEvents x).cfg = s.cfg := rfl
@[simp] theorem State.setEvents_crcB (x : List Event) (s : State) : (s.setEvents x).crcB = s.crcB := rfl
@[simp] theorem State.setEvents_store (x : List Event) (s : State) : (s.setEvents x).store = s.store := rfl
@[simp] theorem State.setEvents_dec (x : List Event) (s : State) : (s.setEvents x).dec = s.dec := rfl
@[simp] theorem State.setEvents_crcA (x : List Event) (s : State) : (s.setEvents x).crcA = s.crcA := rfl
@[simp] theorem State.setEvents_slv (x : List Event) (s : State) : (s.setEvents x).slv = s.slv := rfl
@[simp] theorem State.setEvents_tmr (x : List Event) (s : State) : (s.setEvents x).tmr = s.tmr := rfl
@[simp] theorem State.setEvents_tx (x : List Event) (s : State) : (s.setEvents x).tx = s.tx := rfl
@[simp] theorem State.setEvents_events (x : List Event) (s : State) : (s.setEvents x).events = x := rfl
@[simp] theorem State.setEvents_ret (x : List Event) (s : State) : (s.setEvents x).ret = s.ret := rfl
@[simp] theorem State.setEvents_setEvents (x y : List Event) (s : State) : (s.setEvents x).setEvents y = s.setEvents y := rfl
@[simp] theorem State.setEvents_self (s : State) : s.setEvents s.events = s := rfl

@[simp] theorem State.setRet_cfg (x : Option RetVal) (s : State) : (s.setRet x).cfg = s.cfg := rfl
@[simp] theorem State.setRet_crcB (x : Option RetVal) (s : State) : (s.setRet x).crcB = s.crcB := rfl
@[simp] theorem State.setRet_store (x : Option RetVal) (s : State) : (s.setRet x).store = s.store := rfl
@[simp] theorem State.setRet_dec (x : Option RetVal) (s : State) : (s.setRet x).dec = s.dec := rfl
@[simp] theorem State.setRet_crcA (x : Option RetVal) (s : State) : (s.setRet x).crcA = s.crcA := rfl
@[simp] theorem State.setRet_slv (x : Option RetVal) (s : State) : (s.setRet x).slv = s.slv := rfl
@[simp] theorem State.setRet_tmr (x : Option RetVal) (s : State) : (s.setRet x).tmr = s.tmr := rfl
@[simp] theorem State.setRet_tx (x : Option RetVal) (s : State) : (s.setRet x).tx = s.tx := rfl
@[simp] theorem State.setRet_events (x : Option RetVal) (s : State) : (s.setRet x).events = s.events := rfl
@[simp] theorem State.setRet_ret (x : Option RetVal) (s : State) : (s.setRet x).ret = x := rfl
@[simp] theorem State.setRet_setRet (x y : Option RetVal) (s : State) : (s.setRet x).setRet y = s.setRet y := rfl
@[simp] theorem State.setRet_self (s : State) : s.setRet s.ret = s := rfl

@[simp] theorem State.crc_A (s : State) : s.crc .A = s.crcA := rfl
@[simp] theorem State.setCrc_A (x : Word16) (s : State) : s.setCrc .A x = s.setCrcA x := rfl
@[simp] theorem State.crc_B (s : State) : s.crc .B = s.crcB := rfl
@[simp] theorem State.setCrc_B (x : Word16) (s : State) : s.setCrc .B x = s.setCrcB x := rfl
@[simp] theorem State.ctx_setEvents (x : List Event) (s : State) : (s.setEvents x).ctx = s.ctx := rfl
@[simp] theorem State.ctx_setRet (x : Option RetVal) (s : State) : (s.setRet x).ctx = s.ctx := rfl
@[simp] theorem State.ctx_setCrcA (x : Word16) (s : State) : (s.setCrcA x).ctx = s.ctx := rfl
@[simp] theorem State.ctx_setCrcB (x : Word16) (s : State) : (s.setCrcB x).ctx = s.ctx := rfl
@[simp] theorem State.ctx_setStore (x : Store) (s : State) : (s.setStore x).ctx = s.ctx := rfl
@[simp] theorem State.ctx_setTmr (x : Timer) (s : State) : (s.setTmr x).ctx = s.ctx := rfl
@[simp] theorem State.ctx_setTx (x : List TxEvent) (s : State) : (s.setTx x).ctx = s.ctx := rfl

end Sys2Proof.Machine
end

