-- ==== Sys2Proof/Laws/Ops.lean ====
section
/-! SUPPORT. For each shared operation, what it can do, said once: its result on the fields it writes,
and that it writes no other. -/

namespace Sys2Proof.Machine

/-! ### The CRC-16 Engine -/

@[simp] theorem crcFold_nil (v : CrcVariant) (x : Word16) : crcFold v x [] = x := rfl

@[simp] theorem crcFold_cons (v : CrcVariant) (x : Word16) (b : Byte) (p : List Byte) :
    crcFold v x (b :: p) = crcFold v (crcStep v x b) p := rfl

theorem crcFold_append (v : CrcVariant) (x : Word16) (p q : List Byte) :
    crcFold v x (p ++ q) = crcFold v (crcFold v x p) q := List.foldl_append

theorem crcOf_append (v : CrcVariant) (p q : List Byte) :
    crcOf v (p ++ q) = crcFold v (crcOf v p) q := crcFold_append ..

/-! ### The Register Store -/

@[simp] theorem Store.reset_live (st : Store) : st.reset.live = st.live := rfl
@[simp] theorem Store.reset_staged (st : Store) : st.reset.staged = st.staged := rfl
@[simp] theorem Store.reset_det (st : Store) : st.reset.det = none := rfl
@[simp] theorem Store.reset_sset (st : Store) :
    st.reset.sset = st.sset.map (fun _ => false) := rfl

@[simp] theorem Store.presentCode_live (c : Cfg) (p : List Byte) (st : Store) :
    (st.presentCode c p).live = st.live := rfl
@[simp] theorem Store.presentCode_staged (c : Cfg) (p : List Byte) (st : Store) :
    (st.presentCode c p).staged = st.staged := rfl
@[simp] theorem Store.presentCode_sset (c : Cfg) (p : List Byte) (st : Store) :
    (st.presentCode c p).sset = st.sset := rfl
@[simp] theorem Store.presentCode_det (c : Cfg) (p : List Byte) (st : Store) :
    (st.presentCode c p).det = matchCode c p := rfl

/-- The code that a presented string names is an entry of the table. -/
theorem matchCode_lt {c : Cfg} {p : List Byte} {k : Nat} (h : matchCode c p = some k) :
    k < c.nCodes := by
  unfold matchCode at h
  split at h
  · obtain ⟨hk, -⟩ := List.findIdx?_eq_some_iff_getElem.mp h
    exact hk
  · cases h

theorem Store.presentValue_none {st : Store} (v : I64) (h : st.det = none) :
    st.presentValue v = st := by
  simp [Store.presentValue, h]

theorem Store.presentValue_some {st : Store} {k : Nat} (v : I64) (h : st.det = some k) :
    st.presentValue v = Store.mk st.live
      ((st.staged.set (2 * k) (v.extractLsb' 16 16)).set (2 * k + 1) (v.extractLsb' 0 16))
      (st.sset.set k true) none := by
  simp [Store.presentValue, h]

@[simp] theorem Store.presentValue_live (v : I64) (st : Store) :
    (st.presentValue v).live = st.live := by
  unfold Store.presentValue; split <;> rfl

@[simp] theorem Store.presentValue_det (v : I64) (st : Store) :
    (st.presentValue v).det = none := by
  unfold Store.presentValue; split <;> simp_all

@[simp] theorem Store.presentValue_staged_length (v : I64) (st : Store) :
    (st.presentValue v).staged.length = st.staged.length := by
  unfold Store.presentValue; split <;> simp

@[simp] theorem Store.presentValue_sset_length (v : I64) (st : Store) :
    (st.presentValue v).sset.length = st.sset.length := by
  unfold Store.presentValue; split <;> simp

@[simp] theorem Store.commit_staged (c : Cfg) (st : Store) : (st.commit c).staged = st.staged := rfl
@[simp] theorem Store.commit_det (c : Cfg) (st : Store) : (st.commit c).det = st.det := rfl
@[simp] theorem Store.commit_sset (c : Cfg) (st : Store) :
    (st.commit c).sset = st.sset.map (fun _ => false) := rfl

@[simp] theorem Store.commit_live_length (c : Cfg) (st : Store) :
    (st.commit c).live.length = st.live.length := by
  simp [Store.commit]

theorem Store.commit_live_getElem? (c : Cfg) (st : Store) (i : Nat) :
    (st.commit c).live[i]? = st.live[i]?.map (st.committedWord c i) := by
  simp [Store.commit]

/-- What `readRegister` answers, by the index. -/
theorem readRegister_out_of_range {c : Cfg} {st : Store} {i : Nat} (h : c.nReg ≤ i) :
    readRegister c st i = .error (.readRegisterOutOfRange i) := by
  simp [readRegister, registerCount, h]

theorem readRegister_zero (c : Cfg) (st : Store) : readRegister c st 0 = .ok c.versionHi := by
  simp [readRegister, registerCount, Cfg.nReg]

theorem readRegister_one (c : Cfg) (st : Store) : readRegister c st 1 = .ok c.versionLo := by
  have h : ¬ (2 + 2 * c.nCodes ≤ 1) := by omega
  simp [readRegister, registerCount, Cfg.nReg, h]

theorem readRegister_live {c : Cfg} {st : Store} {i : Nat} {w : Word16} (hi : i + 2 < c.nReg)
    (hw : st.live[i]? = some w) : readRegister c st (i + 2) = .ok w := by
  simp [readRegister, registerCount, Nat.not_le.mpr hi, hw]

/-- In range, and with a whole live file, a read succeeds. -/
theorem readRegister_ok {c : Cfg} {st : Store} {i : Nat} (hl : st.live.length = 2 * c.nCodes)
    (hi : i < c.nReg) : ∃ w, readRegister c st i = .ok w := by
  obtain _ | _ | i := i
  · exact ⟨_, readRegister_zero c st⟩
  · exact ⟨_, readRegister_one c st⟩
  · have h : i < st.live.length := by simp [Cfg.nReg] at hi; omega
    exact ⟨_, readRegister_live hi (List.getElem?_eq_getElem h)⟩

/-- `n` registers in range are read in order. -/
theorem readRegisters_ok {c : Cfg} {st : Store} {n : Nat} (hl : st.live.length = 2 * c.nCodes) :
    ∀ {i : Nat}, i + n ≤ c.nReg → ∃ ws, readRegisters c st i n = .ok ws ∧ ws.length = n ∧
      ∀ j w, ws[j]? = some w → readRegister c st (i + j) = .ok w := by
  induction n with
  | zero => exact fun _ => ⟨[], rfl, rfl, by simp⟩
  | succ n ih =>
    intro i hi
    obtain ⟨w, hw⟩ := readRegister_ok (st := st) hl (show i < c.nReg by omega)
    obtain ⟨ws, hws, hlen, hget⟩ := ih (i := i + 1) (by omega)
    refine ⟨w :: ws, by simp [readRegisters, hw, hws], by simp [hlen], ?_⟩
    rintro (_ | j) x hx
    · simp_all
    · rw [show i + (j + 1) = i + 1 + j by omega]
      exact hget j x (by simpa using hx)

/-! ### The decoder's resets -/

@[simp] theorem decoderReset_eq (r : ResetCause) (s : State) : decoderReset r s = fullReset s := rfl
@[simp] theorem fullReset_cfg (s : State) : (fullReset s).cfg = s.cfg := rfl
@[simp] theorem fullReset_crcB (s : State) : (fullReset s).crcB = 0xFFFF := rfl
@[simp] theorem fullReset_store (s : State) : (fullReset s).store = s.store.reset := rfl
@[simp] theorem fullReset_dec (s : State) : (fullReset s).dec = Dec.powerOn := rfl
@[simp] theorem fullReset_crcA (s : State) : (fullReset s).crcA = s.crcA := rfl
@[simp] theorem fullReset_slv (s : State) : (fullReset s).slv = s.slv := rfl
@[simp] theorem fullReset_tmr (s : State) : (fullReset s).tmr = s.tmr := rfl
@[simp] theorem fullReset_tx (s : State) : (fullReset s).tx = s.tx := rfl
@[simp] theorem fullReset_events (s : State) : (fullReset s).events = s.events := rfl
@[simp] theorem fullReset_ret (s : State) : (fullReset s).ret = s.ret := rfl

/-! ### The nesting stack -/

theorem childDone_length_le (ls : List Level) : (childDone ls).length ≤ ls.length := by
  induction ls with
  | nil => exact Nat.le_refl _
  | cons l ls ih =>
    unfold childDone
    split
    · exact Nat.le_succ_of_le ih
    · exact Nat.le_refl _

/-- Counting a child keeps every open level open (R218). -/
theorem childDone_open {ls : List Level} (h : ∀ l ∈ ls, l.rd < l.exp ∧ l.exp ≤ 15) :
    ∀ l ∈ childDone ls, l.rd < l.exp ∧ l.exp ≤ 15 := by
  induction ls with
  | nil => simp [childDone]
  | cons l ls ih =>
    unfold childDone
    obtain ⟨hl, hls⟩ := List.forall_mem_cons.mp h
    split
    · exact ih hls
    · refine List.forall_mem_cons.mpr ⟨⟨?_, hl.2⟩, hls⟩
      show l.rd + 1 < l.exp
      omega

/-- Closing the current level (R217) is counting a child of the level around it. -/
theorem closeCurrentLv_cons (l : Level) (ls : List Level) :
    closeCurrentLv (l :: ls) = childDone ls := rfl

/-! ### Frames of the decoder's operations: what the decoder never writes (R12, R172) -/

/-- Two states agree on everything that is not the decoder's: the configuration, the Slave, its
checksum, the timer, the transmit stream, the waiting events and the returned value. -/
structure SameSlaveSide (s t : State) : Prop where
  cfg : t.cfg = s.cfg
  crcA : t.crcA = s.crcA
  slv : t.slv = s.slv
  tmr : t.tmr = s.tmr
  tx : t.tx = s.tx
  events : t.events = s.events
  ret : t.ret = s.ret

theorem SameSlaveSide.refl (s : State) : SameSlaveSide s s := ⟨rfl, rfl, rfl, rfl, rfl, rfl, rfl⟩

theorem SameSlaveSide.trans {s t u : State} (h : SameSlaveSide s t) (k : SameSlaveSide t u) :
    SameSlaveSide s u :=
  ⟨k.cfg.trans h.cfg, k.crcA.trans h.crcA, k.slv.trans h.slv, k.tmr.trans h.tmr, k.tx.trans h.tx,
    k.events.trans h.events, k.ret.trans h.ret⟩

theorem sameSlaveSide_setDec (d : Dec) (s : State) : SameSlaveSide s (s.setDec d) :=
  ⟨rfl, rfl, rfl, rfl, rfl, rfl, rfl⟩

theorem sameSlaveSide_setStore (st : Store) (s : State) : SameSlaveSide s (s.setStore st) :=
  ⟨rfl, rfl, rfl, rfl, rfl, rfl, rfl⟩

theorem sameSlaveSide_feedCrcB (b : Byte) (s : State) : SameSlaveSide s (feedCrcB b s) :=
  ⟨rfl, rfl, rfl, rfl, rfl, rfl, rfl⟩

theorem sameSlaveSide_fullReset (s : State) : SameSlaveSide s (fullReset s) :=
  ⟨rfl, rfl, rfl, rfl, rfl, rfl, rfl⟩

/-- What the element callback does (R225, R230): it may set the detected slot, stage a value or capture
a scale, and writes nothing else. -/
theorem callback_cases (tag : Tag) (depth pos : Nat) (p : List Byte) (s : State) :
    ∃ st x, callback tag depth pos p s =
      (s.setStore st).setDec { s.dec with scale := x } ∧
      (st = s.store ∨ st = s.store.presentCode s.cfg p ∨
        ∃ y, st = s.store.presentValue (toScale (intValue p) y)) := by
  unfold callback
  split
  · exact ⟨s.store, s.dec.scale, rfl, .inl rfl⟩
  · cases tag
    · by_cases h : pos = s.cfg.codePos
      · refine ⟨s.store.presentCode s.cfg p, s.dec.scale, ?_, .inr (.inl rfl)⟩
        simp only [h, reduceCtorEq, true_and, false_and, if_true, if_false]
        rfl
      · refine ⟨s.store, s.dec.scale, ?_, .inl rfl⟩
        simp only [h, reduceCtorEq, and_false, false_and, if_false]
        rfl
    · refine ⟨s.store, s.dec.scale, ?_, .inl rfl⟩
      simp only [reduceCtorEq, false_and, if_false]
      rfl
    · have hscale : ∀ q : State, ∃ x, captureScale p q = q.setDec { q.dec with scale := x } := by
        intro q
        unfold captureScale
        split
        · exact ⟨_, rfl⟩
        · exact ⟨q.dec.scale, rfl⟩
      obtain ⟨x, hx⟩ := hscale s
      by_cases h1 : pos = s.cfg.scalePos <;> by_cases h2 : pos = s.cfg.valuePos <;>
        simp only [h1, h2, reduceCtorEq, false_and, true_and, if_true, if_false, hx]
      all_goals (try split_ifs)
      all_goals first
        | exact ⟨s.store, s.dec.scale, rfl, .inl rfl⟩
        | exact ⟨s.store, x, rfl, .inl rfl⟩
        | exact ⟨_, x, rfl, .inr (.inr ⟨x, rfl⟩)⟩
        | exact ⟨_, s.dec.scale, rfl, .inr (.inr ⟨s.dec.scale, rfl⟩)⟩
    · refine ⟨s.store, s.dec.scale, ?_, .inl rfl⟩
      simp only [reduceCtorEq, false_and, if_false]
      rfl

/-! ### Emission -/

@[simp] theorem sendFrame_tx (body : List Byte) (s : State) :
    (sendFrame body s).tx = s.tx ++ frameEvents (withChecksum body) := rfl
@[simp] theorem sendFrame_crcA (body : List Byte) (s : State) :
    (sendFrame body s).crcA = crcOf .A body := rfl
@[simp] theorem sendFrame_cfg (body : List Byte) (s : State) : (sendFrame body s).cfg = s.cfg := rfl
@[simp] theorem sendFrame_crcB (body : List Byte) (s : State) : (sendFrame body s).crcB = s.crcB := rfl
@[simp] theorem sendFrame_store (body : List Byte) (s : State) :
    (sendFrame body s).store = s.store := rfl
@[simp] theorem sendFrame_dec (body : List Byte) (s : State) : (sendFrame body s).dec = s.dec := rfl
@[simp] theorem sendFrame_slv (body : List Byte) (s : State) : (sendFrame body s).slv = s.slv := rfl
@[simp] theorem sendFrame_tmr (body : List Byte) (s : State) : (sendFrame body s).tmr = s.tmr := rfl
@[simp] theorem sendFrame_events (body : List Byte) (s : State) :
    (sendFrame body s).events = s.events := rfl
@[simp] theorem sendFrame_ret (body : List Byte) (s : State) : (sendFrame body s).ret = s.ret := rfl

/-- What `respond` can do (R269): emit one frame, or fault on a register out of range. -/
theorem respond_cases (start count : Nat) (s : State) :
    (∃ ws, readRegisters s.cfg s.store start count = .ok ws ∧
      respond start count s = .ok (sendFrame (responseBody s.cfg count ws) s)) ∨
    ∃ f, readRegisters s.cfg s.store start count = .error f ∧ respond start count s = .error f := by
  unfold respond
  split
  · rename_i f h
    exact .inr ⟨f, h, rfl⟩
  · rename_i ws h
    exact .inl ⟨ws, h, rfl⟩

/-- A legal request is one whose registers are all in the register file (R268). -/
theorem Request.in_range {c : Cfg} {r : Request} (h : r.illegal c = false) :
    r.start.toNat + r.count.toNat ≤ c.nReg ∧ r.count ≠ 0 := by
  simp only [Request.illegal, Bool.or_eq_false_iff, decide_eq_false_iff_not, beq_eq_false_iff_ne,
    ne_eq] at h
  obtain ⟨⟨⟨⟨-, h1⟩, h2⟩, -⟩, h3⟩ := h
  exact ⟨by omega, h2⟩

/-! ### Outcomes and rows -/

@[simp] theorem outcomeOf_ok (s : State) : outcomeOf (.ok s) = .next s := rfl
@[simp] theorem outcomeOf_error (f : Fault) : outcomeOf (.error f) = .fault f := rfl

/-- A byte row answers a next state exactly where it is selected and its action succeeds. -/
theorem onRow_next {i : Instr} {s t : State} {r : Except Fault State} :
    onRow i s r = .next t ↔ selected i s = true ∧ r = .ok t := by
  unfold onRow outcomeOf
  cases selected i s <;> cases r <;> simp

theorem onRow_selected {i : Instr} {s : State} {r : Except Fault State} (h : selected i s = true) :
    onRow i s r = outcomeOf r := by
  simp [onRow, h]

theorem onRow_not_selected {i : Instr} {s : State} {r : Except Fault State}
    (h : selected i s = false) : onRow i s r = .refused .rowNotSelected := by
  simp [onRow, h]

/-- The decoding context, by the decoder's state. -/
theorem decCtx_seekEsc {d : Dec} (h : d.state = .seekEsc) : decCtx d = .seekEsc := by simp [decCtx, h]
theorem decCtx_seekType_first {d : Dec} (h : d.state = .seekType) (hj : d.j = 0) :
    decCtx d = .seekTypeFirst := by simp [decCtx, h, hj]
theorem decCtx_seekType_rest {d : Dec} (h : d.state = .seekType) (hj : d.j ≠ 0) :
    decCtx d = .seekTypeRest := by simp [decCtx, h, hj]
theorem decCtx_endFill {d : Dec} (h : d.state = .endFill) : decCtx d = .endFill := by simp [decCtx, h]
theorem decCtx_trailer_first {d : Dec} (h : d.state = .trailer) (ht : d.t = 0) :
    decCtx d = .trailerFirst := by simp [decCtx, h, ht]
theorem decCtx_trailer_second {d : Dec} (h : d.state = .trailer) (ht : d.t ≠ 0) :
    decCtx d = .trailerSecond := by simp [decCtx, h, ht]
theorem decCtx_inMsg {d : Dec} (h : d.state = .inMsg) : decCtx d = .inMsg := by simp [decCtx, h]
theorem decCtx_accum {d : Dec} (h : d.state = .accum) : decCtx d = .accum := by simp [decCtx, h]

end Sys2Proof.Machine
end

