-- ==== Sys2Proof/Laws/Decoder.lean ====
section
/-! SUPPORT. What the decoder's operations can do: which side of the state `feed` leaves alone, what the
completion of an element does, and how `feed` runs over a list of bytes. -/

namespace Sys2Proof.Machine

/-! ### Feeding a list -/

@[simp] theorem feedAll_nil (s : State) : feedAll [] s = s := rfl

@[simp] theorem feedAll_cons (b : Byte) (p : List Byte) (s : State) :
    feedAll (b :: p) s = feedAll p (feed b s) := rfl

theorem feedAll_append (p q : List Byte) (s : State) :
    feedAll (p ++ q) s = feedAll q (feedAll p s) := by simp [feedAll]

/-! ### Completing an element -/

theorem completeElement_closed {tag : Tag} {p : List Byte} {s : State} (h : s.dec.lv = []) :
    completeElement tag p s = s.setDec { s.dec with state := .inMsg } := by
  simp [completeElement, h]

theorem completeElement_open {tag : Tag} {p : List Byte} {s : State} {l : Level} {ls : List Level}
    (h : s.dec.lv = l :: ls) :
    completeElement tag p s = (callback tag s.dec.d l.rd p s).setDec
      { (callback tag s.dec.d l.rd p s).dec with
        lv := childDone (callback tag s.dec.d l.rd p s).dec.lv, state := .inMsg } := by
  simp [completeElement, h]

/-! ### The Slave's side -/

theorem sameSlaveSide_callback (tag : Tag) (depth pos : Nat) (p : List Byte) (s : State) :
    SameSlaveSide s (callback tag depth pos p s) := by
  unfold callback captureScale presentCode presentReading
  split
  · exact .refl _
  · split <;> split <;> split <;> (try split) <;> exact ⟨rfl, rfl, rfl, rfl, rfl, rfl, rfl⟩

theorem sameSlaveSide_completeElement (tag : Tag) (p : List Byte) (s : State) :
    SameSlaveSide s (completeElement tag p s) := by
  unfold completeElement
  split
  · exact sameSlaveSide_setDec _ _
  · exact (sameSlaveSide_callback ..).trans (sameSlaveSide_setDec _ _)

theorem sameSlaveSide_scalarElement (tag : Tag) (n : Nibble) (s : State) :
    SameSlaveSide s (scalarElement tag n s) := by
  unfold scalarElement
  split
  · exact sameSlaveSide_completeElement ..
  · split
    · exact sameSlaveSide_fullReset _
    · exact sameSlaveSide_setDec _ _

theorem sameSlaveSide_accumulate (b : Byte) (s : State) : SameSlaveSide s (accumulate b s) := by
  unfold accumulate
  dsimp only
  split
  · exact (sameSlaveSide_setDec _ _).trans (sameSlaveSide_completeElement ..)
  · exact sameSlaveSide_setDec _ _

theorem sameSlaveSide_pushList (n : Nibble) (s : State) : SameSlaveSide s (pushList n s) := by
  unfold pushList
  split
  · exact sameSlaveSide_fullReset _
  · exact sameSlaveSide_setDec _ _

theorem sameSlaveSide_structural (b : Byte) (s : State) : SameSlaveSide s (structural b s) := by
  unfold structural
  split
  · exact sameSlaveSide_setDec _ _
  split
  · exact sameSlaveSide_setDec _ _
  split
  · split
    · exact sameSlaveSide_setDec _ _
    · exact sameSlaveSide_pushList ..
  split
  · exact sameSlaveSide_scalarElement ..
  · exact sameSlaveSide_fullReset _

theorem sameSlaveSide_beginMessage (s : State) : SameSlaveSide s (beginMessage s) :=
  (sameSlaveSide_setStore _ _).trans (sameSlaveSide_setDec _ _)

theorem sameSlaveSide_beginByteSeen (s : State) : SameSlaveSide s (beginByteSeen s) := by
  unfold beginByteSeen
  dsimp only
  split
  · exact (sameSlaveSide_setDec _ _).trans (sameSlaveSide_beginMessage _)
  · exact sameSlaveSide_setDec _ _

theorem sameSlaveSide_seekType (b : Byte) (s : State) : SameSlaveSide s (seekType b s) := by
  unfold seekType
  split
  · split
    · exact sameSlaveSide_beginByteSeen _
    split
    · exact sameSlaveSide_setDec _ _
    split <;> exact sameSlaveSide_fullReset _
  · split
    · exact sameSlaveSide_beginByteSeen _
    · exact sameSlaveSide_fullReset _

theorem sameSlaveSide_seekEsc (b : Byte) (s : State) : SameSlaveSide s (seekEsc b s) := by
  unfold seekEsc escapeSeen
  split
  · split <;> exact sameSlaveSide_setDec _ _
  · exact sameSlaveSide_fullReset _

theorem sameSlaveSide_trailerByte (b : Byte) (s : State) : SameSlaveSide s (trailerByte b s) := by
  unfold trailerByte trailerHigh
  split
  · exact sameSlaveSide_setDec _ _
  · split <;> exact (sameSlaveSide_setStore _ _).trans (sameSlaveSide_fullReset _)

/-- A telemetry byte leaves the configuration, the Slave's side, the events and the returned value. -/
theorem sameSlaveSide_feed (b : Byte) (s : State) : SameSlaveSide s (feed b s) := by
  unfold feed
  split
  · exact sameSlaveSide_trailerByte ..
  · exact (sameSlaveSide_feedCrcB ..).trans (sameSlaveSide_seekEsc ..)
  · exact (sameSlaveSide_feedCrcB ..).trans (sameSlaveSide_seekType ..)
  · exact (sameSlaveSide_feedCrcB ..).trans (sameSlaveSide_setDec _ _)
  · exact (sameSlaveSide_feedCrcB ..).trans (sameSlaveSide_structural ..)
  · exact (sameSlaveSide_feedCrcB ..).trans (sameSlaveSide_accumulate ..)

end Sys2Proof.Machine
end

