-- ==== Sys2Proof/Laws/PerInstr.lean ====
section
/-! SUPPORT. The statements made per instruction: each is about the instruction as syntax. -/

namespace Sys2Proof.Laws

open Sys2Proof

/-- The encoder delivers every instruction on the surface that its row of the opcode table names (R100,
R123): telemetry rows as one telemetry byte, fieldbus rows as one fieldbus byte, the request frame as
eight bytes, and every other row as a call of itself. -/
def EncodedSurface.Statement (i : Instr) : Prop :=
  ∀ c : Cfg, match i.rowState, encode c i with
    | .tele _, .telemetry _ => True
    | .bus _, .fieldbus _ _ => True
    | .frame, .frame bytes => bytes.length = 8
    | .operation, .call op => op.instr = i
    | _, _ => False

theorem EncodedSurface.seekEscEsc :
    EncodedSurface.Statement .seekEscEsc := fun _ => trivial
theorem EncodedSurface.seekEscOther (b : Byte) :
    EncodedSurface.Statement (.seekEscOther b) := fun _ => trivial
theorem EncodedSurface.seekTypeBegin :
    EncodedSurface.Statement .seekTypeBegin := fun _ => trivial
theorem EncodedSurface.seekTypeEnd :
    EncodedSurface.Statement .seekTypeEnd := fun _ => trivial
theorem EncodedSurface.seekTypeEscEsc :
    EncodedSurface.Statement .seekTypeEscEsc := fun _ => trivial
theorem EncodedSurface.seekTypeOther (b : Byte) :
    EncodedSurface.Statement (.seekTypeOther b) := fun _ => trivial
theorem EncodedSurface.seekTypeBeginN :
    EncodedSurface.Statement .seekTypeBeginN := fun _ => trivial
theorem EncodedSurface.seekTypeOtherN (b : Byte) :
    EncodedSurface.Statement (.seekTypeOtherN b) := fun _ => trivial
theorem EncodedSurface.endFillFill (fill : Byte) :
    EncodedSurface.Statement (.endFillFill fill) := fun _ => trivial
theorem EncodedSurface.trailerCrcLo (lo : Byte) :
    EncodedSurface.Statement (.trailerCrcLo lo) := fun _ => trivial
theorem EncodedSurface.trailerCrcHi (hi : Byte) :
    EncodedSurface.Statement (.trailerCrcHi hi) := fun _ => trivial
theorem EncodedSurface.inMsgEsc :
    EncodedSurface.Statement .inMsgEsc := fun _ => trivial
theorem EncodedSurface.inMsgZero :
    EncodedSurface.Statement .inMsgZero := fun _ => trivial
theorem EncodedSurface.inMsgListClose :
    EncodedSurface.Statement .inMsgListClose := fun _ => trivial
theorem EncodedSurface.inMsgListPush (n : Nibble) :
    EncodedSurface.Statement (.inMsgListPush n) := fun _ => trivial
theorem EncodedSurface.inMsgBoolEmpty :
    EncodedSurface.Statement .inMsgBoolEmpty := fun _ => trivial
theorem EncodedSurface.inMsgIntEmpty :
    EncodedSurface.Statement .inMsgIntEmpty := fun _ => trivial
theorem EncodedSurface.inMsgUintEmpty :
    EncodedSurface.Statement .inMsgUintEmpty := fun _ => trivial
theorem EncodedSurface.inMsgOctet (n : Nibble) :
    EncodedSurface.Statement (.inMsgOctet n) := fun _ => trivial
theorem EncodedSurface.inMsgBool (n : Nibble) :
    EncodedSurface.Statement (.inMsgBool n) := fun _ => trivial
theorem EncodedSurface.inMsgInt (n : Nibble) :
    EncodedSurface.Statement (.inMsgInt n) := fun _ => trivial
theorem EncodedSurface.inMsgUint (n : Nibble) :
    EncodedSurface.Statement (.inMsgUint n) := fun _ => trivial
theorem EncodedSurface.inMsgIllegal (b : Byte) :
    EncodedSurface.Statement (.inMsgIllegal b) := fun _ => trivial
theorem EncodedSurface.accumData (p : Byte) :
    EncodedSurface.Statement (.accumData p) := fun _ => trivial
theorem EncodedSurface.idleAddr :
    EncodedSurface.Statement .idleAddr := fun _ => trivial
theorem EncodedSurface.idleOther (b : Byte) (quiet : Bool) :
    EncodedSurface.Statement (.idleOther b quiet) := fun _ => trivial
theorem EncodedSurface.addrMatchedFunc (quiet : Bool) :
    EncodedSurface.Statement (.addrMatchedFunc quiet) := fun _ => trivial
theorem EncodedSurface.addrMatchedOther (b : Byte) (quiet : Bool) :
    EncodedSurface.Statement (.addrMatchedOther b quiet) := fun _ => trivial
theorem EncodedSurface.collectingData (b : Byte) (quiet : Bool) :
    EncodedSurface.Statement (.collectingData b quiet) := fun _ => trivial
theorem EncodedSurface.reqReadInputRegisters (paramHi start countHi count crcLo crcHi : Byte) :
    EncodedSurface.Statement (.reqReadInputRegisters paramHi start countHi count crcLo crcHi) := fun _ => rfl
theorem EncodedSurface.respReadInputRegisters (start count : Byte) :
    EncodedSurface.Statement (.respReadInputRegisters start count) := fun _ => rfl
theorem EncodedSurface.respExcIllegalFunction (func : Byte) :
    EncodedSurface.Statement (.respExcIllegalFunction func) := fun _ => rfl
theorem EncodedSurface.respExcIllegalDataAddress :
    EncodedSurface.Statement .respExcIllegalDataAddress := fun _ => rfl
theorem EncodedSurface.crcReset (v : CrcVariant) :
    EncodedSurface.Statement (.crcReset v) := fun _ => rfl
theorem EncodedSurface.crcFeed (v : CrcVariant) (b : Byte) :
    EncodedSurface.Statement (.crcFeed v b) := fun _ => rfl
theorem EncodedSurface.crcLowByte (v : CrcVariant) :
    EncodedSurface.Statement (.crcLowByte v) := fun _ => rfl
theorem EncodedSurface.crcHighByte (v : CrcVariant) :
    EncodedSurface.Statement (.crcHighByte v) := fun _ => rfl
theorem EncodedSurface.storeReset :
    EncodedSurface.Statement .storeReset := fun _ => rfl
theorem EncodedSurface.storePresentCode (p : List Byte) :
    EncodedSurface.Statement (.storePresentCode p) := fun _ => rfl
theorem EncodedSurface.storePresentValue (v : I64) :
    EncodedSurface.Statement (.storePresentValue v) := fun _ => rfl
theorem EncodedSurface.storeCommit :
    EncodedSurface.Statement .storeCommit := fun _ => rfl
theorem EncodedSurface.storeRegisterCount :
    EncodedSurface.Statement .storeRegisterCount := fun _ => rfl
theorem EncodedSurface.storeReadRegister (i : Nat) :
    EncodedSurface.Statement (.storeReadRegister i) := fun _ => rfl
theorem EncodedSurface.decoderFeed (b : Byte) :
    EncodedSurface.Statement (.decoderFeed b) := fun _ => rfl
theorem EncodedSurface.slaveOnByte (b : Byte) (quiet : Bool) :
    EncodedSurface.Statement (.slaveOnByte b quiet) := fun _ => rfl
theorem EncodedSurface.timerTick :
    EncodedSurface.Statement .timerTick := fun _ => rfl
theorem EncodedSurface.timerRx (b : Byte) :
    EncodedSurface.Statement (.timerRx b) := fun _ => rfl

end Sys2Proof.Laws
end

