-- ==== Sys2Proof/Laws/Slave.lean ====
section
/-! SUPPORT. What the Slave's operations can do: which side of the state a fieldbus byte leaves alone,
and the ways a full frame can end. -/

namespace Sys2Proof.Machine

/-- The configuration, the decoder's side, the silence timer, the events and the returned value are the
same in both states. -/
structure SameDecoderSide (s t : State) : Prop where
  cfg : t.cfg = s.cfg
  crcB : t.crcB = s.crcB
  store : t.store = s.store
  dec : t.dec = s.dec
  tmr : t.tmr = s.tmr
  events : t.events = s.events
  ret : t.ret = s.ret

theorem SameDecoderSide.refl (s : State) : SameDecoderSide s s := ⟨rfl, rfl, rfl, rfl, rfl, rfl, rfl⟩

theorem SameDecoderSide.trans {s t u : State} (h : SameDecoderSide s t) (k : SameDecoderSide t u) :
    SameDecoderSide s u :=
  ⟨k.cfg.trans h.cfg, k.crcB.trans h.crcB, k.store.trans h.store, k.dec.trans h.dec,
    k.tmr.trans h.tmr, k.events.trans h.events, k.ret.trans h.ret⟩

theorem sameDecoderSide_setSlv (x : Slave) (s : State) : SameDecoderSide s (s.setSlv x) :=
  ⟨rfl, rfl, rfl, rfl, rfl, rfl, rfl⟩

theorem sameDecoderSide_setCrcA (x : Word16) (s : State) : SameDecoderSide s (s.setCrcA x) :=
  ⟨rfl, rfl, rfl, rfl, rfl, rfl, rfl⟩

theorem sameDecoderSide_sendFrame (body : List Byte) (s : State) :
    SameDecoderSide s (sendFrame body s) := ⟨rfl, rfl, rfl, rfl, rfl, rfl, rfl⟩

theorem sameDecoderSide_respond {start count : Nat} {s t : State} (h : respond start count s = .ok t) :
    SameDecoderSide s t := by
  unfold respond at h
  split at h
  · cases h
  · cases h; exact sameDecoderSide_sendFrame ..

/-- The dispatch that runs answers one of the two exceptions or the normal response (R266 to R271). -/
theorem dispatch_cases {s t : State} (h : dispatch s = .ok t) :
    (s.slv.buf.getD 0 0 ≠ funcRd ∧
      t = slaveException excIllegalFunction (s.slv.buf.getD 0 0) s) ∨
    (s.slv.buf.getD 0 0 = funcRd ∧ (requestOf s.slv.buf).illegal s.cfg = true ∧
      t = slaveException excIllegalDataAddress funcRd s) ∨
    (s.slv.buf.getD 0 0 = funcRd ∧ (requestOf s.slv.buf).illegal s.cfg = false ∧
      respond (requestOf s.slv.buf).start.toNat (requestOf s.slv.buf).count.toNat s = .ok t) := by
  unfold dispatch readInputRegisters at h
  split at h
  case isTrue h0 => cases h; exact .inl ⟨h0, rfl⟩
  case isFalse h0 =>
    have h0 := Decidable.not_not.mp h0
    dsimp only at h
    split at h
    case isTrue h1 => cases h; exact .inr (.inl ⟨h0, h1, rfl⟩)
    case isFalse h1 => exact .inr (.inr ⟨h0, by simpa using h1, h⟩)

theorem sameDecoderSide_dispatch {s t : State} (h : dispatch s = .ok t) : SameDecoderSide s t := by
  rcases dispatch_cases h with ⟨-, rfl⟩ | ⟨-, -, rfl⟩ | ⟨-, -, h⟩
  · exact sameDecoderSide_sendFrame ..
  · exact sameDecoderSide_sendFrame ..
  · exact sameDecoderSide_respond h

/-- A full frame is dropped, or dispatched, and the Slave goes to IDLE (R263, R265, R272). -/
theorem completeFrame_cases {s t : State} (h : completeFrame s = .ok t) :
    (frameCheck s = false ∧ t = toIdle (s.setCrcA (frameCrc s))) ∨
    (frameCheck s = true ∧ ∃ u, dispatch (s.setCrcA (frameCrc s)) = .ok u ∧ t = toIdle u) := by
  unfold completeFrame at h
  dsimp only at h
  split at h
  case isTrue hc =>
    split at h
    · cases h
    case h_2 u hu => cases h; exact .inr ⟨hc, u, hu, rfl⟩
  case isFalse hc => cases h; exact .inl ⟨by simpa using hc, rfl⟩

theorem sameDecoderSide_completeFrame {s t : State} (h : completeFrame s = .ok t) :
    SameDecoderSide s t := by
  rcases completeFrame_cases h with ⟨-, rfl⟩ | ⟨-, u, hu, rfl⟩
  · exact (sameDecoderSide_setCrcA ..).trans (sameDecoderSide_setSlv _ _)
  · exact ((sameDecoderSide_setCrcA ..).trans (sameDecoderSide_dispatch hu)).trans
      (sameDecoderSide_setSlv _ _)

/-- A fieldbus byte leaves the decoder's side, the timer, the events and the returned value. -/
theorem sameDecoderSide_onByte {b : Byte} {quiet : Bool} {s t : State} (h : onByte b quiet s = .ok t) :
    SameDecoderSide s t := by
  unfold onByte idleByte funcByte collectByte at h
  split at h
  · cases h
    split
    · exact sameDecoderSide_setSlv _ _
    · exact .refl _
  · cases h
    split <;> exact sameDecoderSide_setSlv _ _
  · dsimp only at h
    split at h
    · exact (sameDecoderSide_setSlv _ _).trans (sameDecoderSide_completeFrame h)
    · cases h; exact sameDecoderSide_setSlv _ _

theorem sameDecoderSide_onBytes {p : List Byte} : ∀ {s t : State}, onBytes p s = .ok t →
    SameDecoderSide s t := by
  induction p with
  | nil => intro s t h; cases h; exact .refl _
  | cons b p ih =>
    intro s t h
    unfold onBytes at h
    split at h
    · cases h
    case h_2 u hu => exact (sameDecoderSide_onByte hu).trans (ih h)

theorem sameDecoderSide_onFrame {p : List Byte} {s t : State} (h : onFrame p s = .ok t) :
    SameDecoderSide s t := by
  unfold onFrame at h
  split at h
  · cases h; exact .refl _
  · split at h
    · cases h
    case h_2 u hu => exact (sameDecoderSide_onByte hu).trans (sameDecoderSide_onBytes h)

/-- What a frame that selects no one row can do: its bytes run, or a register read of theirs faults. -/
theorem runByteByByte_cases (bytes : List Byte) (s : State) :
    (∃ t, onFrame bytes s = .ok t ∧ SameDecoderSide s t ∧
      runByteByByte (.notARequest bytes) s = .next t) ∨
    ∃ f, onFrame bytes s = .error f ∧ runByteByByte (.notARequest bytes) s = .fault f := by
  cases h : onFrame bytes s with
  | ok t => exact .inl ⟨t, rfl, sameDecoderSide_onFrame h, by simp [runByteByByte, h]⟩
  | error f => exact .inr ⟨f, rfl, by simp [runByteByByte, h]⟩

end Sys2Proof.Machine
end

