-- ==== Sys2Proof/Tests/Slice0.lean ====
section
/-! SUPPORT. The model's own tests. Expected values come from spec/: the encodings of R102, R110, R111
and R118, the rules, and the vectors of 95_test_vectors.md (named V-…). The `witness_…` theorems show, for
every obligation with hypotheses, states and operands that meet all of them. -/

namespace Sys2Proof.Tests

open Sys2Proof Sys2Proof.Machine

-- One theorem after another: the kernel evaluations below would each hold a thread of their own.
set_option Elab.async false

/-! ### Helpers -/

/-- The next state of an outcome. -/
def nextOf (o : Host.Outcome State Fault Refusal) : Option State :=
  match o with
  | .next s => some s
  | .fault _ => none
  | .refused _ => none

/-- The fault of an outcome. -/
def faultOf (o : Host.Outcome State Fault Refusal) : Option Fault :=
  match o with
  | .next _ => none
  | .fault f => some f
  | .refused _ => none

/-- The refusal of an outcome. -/
def refusalOf (o : Host.Outcome State Fault Refusal) : Option Refusal :=
  match o with
  | .next _ => none
  | .fault _ => none
  | .refused r => some r

/-- The value an operation returned. -/
def retOf (o : Host.Outcome State Fault Refusal) : Option RetVal := (nextOf o).bind (·.ret)

/-- The output events of a step from a state with an empty transmit stream. -/
def txOf (o : Host.Outcome State Fault Refusal) : Option (List TxEvent) := (nextOf o).map (·.tx)

/-- Power-on with the decoder in state `d`, at the levels `lv`, innermost first. -/
def withDec (d : DecState) (lv : List Level) : State :=
  { State.reset with dec := { Dec.powerOn with state := d, lv := lv } }

/-- The last payload byte of an element of type `tag` is to come; `buf` has arrived. -/
def atLast (tag : Tag) (buf : List Byte) (scale : BitVec 8) (lv : List Level) : State :=
  { State.reset with dec :=
      { Dec.powerOn with state := .accum, tag := tag, rem := 1, buf := buf, scale := scale, lv := lv } }

/-- Power-on with the Slave in state `st` and `n` bytes of `buf`. -/
def withSlave (st : SlvState) (buf : List Byte) (n : Nat) : State :=
  { State.reset with slv := { state := st, buf := buf, n := n } }

/-- The Store that `frame1` leaves (V-D02), with `d` detected. -/
def afterFrame1 (d : Option Nat) : State :=
  { State.reset with store :=
      { State.reset.store with live := [0x0000, 0x04D3, 0xFFFF, 0xFFFE, 0x0000, 0x01F4], det := d } }

/-- Four open levels, each with a child read and more to come. -/
def fourLevels : List Level := List.replicate 4 { exp := 3, rd := 1 }

/-- The default configuration with the other length convention (R104). -/
def biased : Cfg := { Cfg.default with tlLenBias := 1 }

/-- A checkable form of the invariants. -/
def invCheck (s : State) : Bool :=
  s.cfg.wf &&
  (s.store.live.length == 2 * s.cfg.nCodes && s.store.staged.length == 2 * s.cfg.nCodes &&
    s.store.sset.length == s.cfg.nCodes && s.store.det.all (· < s.cfg.nCodes)) &&
  (decide (s.dec.k < escRun) && decide (s.dec.j < beginRun) && decide (s.dec.t ≤ 1) &&
    decide (s.dec.d ≤ s.cfg.maxDepth) &&
    s.dec.lv.all (fun l => decide (l.rd < l.exp) && decide (l.exp ≤ 15)) &&
    decide (s.dec.rem ≤ 15) && decide (s.dec.buf.length + s.dec.rem ≤ s.cfg.elemBuf) &&
    (s.dec.state != .accum || decide (1 ≤ s.dec.rem))) &&
  (s.slv.buf.length == frameBuf &&
    (s.slv.state != .collecting ||
      (decide (1 ≤ s.slv.n) && decide (s.slv.n ≤ 6) && s.slv.buf[0]? == some funcRd)) &&
    (s.slv.state == .collecting || s.slv.n == 0)) &&
  decide (s.tmr.elapsed ≤ s.cfg.tSilent)

theorem inv_of_check (s : State) (h : invCheck s = true) : s.Inv := by
  simp only [invCheck, Bool.and_eq_true, Bool.or_eq_true, beq_iff_eq, bne_iff_ne, ne_eq,
    decide_eq_true_eq, List.all_eq_true, Option.all_eq_true] at h
  obtain ⟨⟨⟨⟨hc, ⟨⟨⟨s1, s2⟩, s3⟩, s4⟩⟩, ⟨⟨⟨⟨⟨⟨⟨d1, d2⟩, d3⟩, d4⟩, d5⟩, d6⟩, d7⟩, d8⟩⟩,
    ⟨⟨v1, v2⟩, v3⟩⟩, ht⟩ := h
  refine ⟨hc, ⟨s1, s2, s3, fun k hk => s4 k hk⟩, ⟨d1, d2, d3, d4, d5, d6, d7, ?_⟩, ⟨v1, ?_, ?_⟩, ht⟩
  · intro h; exact d8.resolve_left (fun g => g h)
  · intro h
    obtain ⟨⟨a, b⟩, c⟩ := v2.resolve_left (fun g => g h)
    exact ⟨a, b, c⟩
  · intro h; exact v3.resolve_left h

/-- A state with both engines at work: the decoder in ACCUM at the greatest depth, the Slave waiting for
the last byte of a request, a code detected. -/
def busy : State :=
  { afterFrame1 (some 2) with
    dec := { Dec.powerOn with
      state := .accum, k := 3, j := 3, t := 1, tag := .int, rem := 15, buf := [0x00], scale := 0x80
      lv := List.replicate 9 { exp := 15, rd := 14 } }
    slv := { state := .collecting, n := 6, buf := [0x04, 0x01, 0x00, 0x00, 0x03, 0xB0, 0x00] }
    tmr := { elapsed := 0 } }

theorem busy_inv : busy.Inv := inv_of_check _ (by decide)

/-- The state after a step that does not stop. -/
def after (s : State) : State := (nextOf (step s)).getD s

theorem step_after (s : State) (h : (nextOf (step s)).isSome = true) : step s = .next (after s) := by
  unfold after
  cases e : step s <;> simp_all [nextOf]

/-- Delivering one event. -/
def given (e : Event) (s : State) : State := { s with events := [e] }

/-! ### WellFormed: the operands each row refuses (R110, R118) and the configurations R10 refuses -/

theorem test_illFormed_seekEsc : Instr.wellFormed Cfg.default (.seekEscOther 0x1B) = false := by decide
theorem test_illFormed_seekType :
    Instr.wellFormed Cfg.default (.seekTypeOther 0x01) = false ∧
    Instr.wellFormed Cfg.default (.seekTypeOther 0x1A) = false ∧
    Instr.wellFormed Cfg.default (.seekTypeOther 0x1B) = false ∧
    Instr.wellFormed Cfg.default (.seekTypeOtherN 0x01) = false := by decide
theorem test_illFormed_counts :
    Instr.wellFormed Cfg.default (.inMsgListPush 0) = false ∧
    Instr.wellFormed Cfg.default (.inMsgOctet 0) = false ∧
    Instr.wellFormed Cfg.default (.inMsgBool 0) = false ∧
    Instr.wellFormed Cfg.default (.inMsgInt 0) = false ∧
    Instr.wellFormed Cfg.default (.inMsgUint 0) = false := by decide
theorem test_illFormed_escape :
    Instr.wellFormed { Cfg.default with escByte := 0x70 } .inMsgListClose = false ∧
    Instr.wellFormed { Cfg.default with escByte := 0x7F } (.inMsgListPush 15) = false ∧
    Instr.wellFormed { Cfg.default with escByte := 0x40 } .inMsgBoolEmpty = false ∧
    Instr.wellFormed { Cfg.default with escByte := 0x50 } .inMsgIntEmpty = false ∧
    Instr.wellFormed { Cfg.default with escByte := 0x60 } .inMsgUintEmpty = false ∧
    Instr.wellFormed { Cfg.default with escByte := 0x02 } (.inMsgOctet 2) = false ∧
    Instr.wellFormed { Cfg.default with escByte := 0x42 } (.inMsgBool 2) = false ∧
    Instr.wellFormed { Cfg.default with escByte := 0x52 } (.inMsgInt 2) = false ∧
    Instr.wellFormed { Cfg.default with escByte := 0x62 } (.inMsgUint 2) = false := by decide
theorem test_illFormed_illegal :
    Instr.wellFormed Cfg.default (.inMsgIllegal 0x1B) = false ∧
    Instr.wellFormed Cfg.default (.inMsgIllegal 0x45) = false := by decide
theorem test_illFormed_fieldbus :
    Instr.wellFormed Cfg.default (.idleOther 0x09 true) = false ∧
    Instr.wellFormed Cfg.default (.addrMatchedOther 0x04 false) = false := by decide
theorem test_illFormed_presentCode :
    Instr.wellFormed Cfg.default (.storePresentCode (List.replicate 16 0)) = false := by decide

theorem test_cfg_default : Cfg.default.wf = true ∧ biased.wf = true := by decide
theorem test_cfg_codes :
    Cfg.wf { Cfg.default with codeTable := [], pPersist := 0 } = false ∧
    Cfg.wf { Cfg.default with codeTable := List.replicate 63 [0, 0, 0, 0, 0] } = false ∧
    Cfg.wf { Cfg.default with codeTable := [[1, 2, 3, 4]], pPersist := 0 } = false ∧
    Cfg.wf { Cfg.default with pPersist := 4 } = false := by decide
theorem test_cfg_positions :
    Cfg.wf { Cfg.default with codeDepth := 0 } = false ∧
    Cfg.wf { Cfg.default with codeDepth := 10 } = false ∧
    Cfg.wf { Cfg.default with codePos := 15 } = false ∧
    Cfg.wf { Cfg.default with scalePos := 15 } = false ∧
    Cfg.wf { Cfg.default with valuePos := 15 } = false ∧
    Cfg.wf { Cfg.default with scalePos := 5 } = false := by decide
theorem test_cfg_bytes :
    Cfg.wf { Cfg.default with tSilent := 0 } = false ∧
    Cfg.wf { Cfg.default with escByte := 0x00 } = false ∧
    Cfg.wf { Cfg.default with escByte := 0x01 } = false ∧
    Cfg.wf { Cfg.default with escByte := 0x1A } = false ∧
    Cfg.wf { Cfg.default with tlLenBias := 2 } = false := by decide

/-! ### Decode: every row, from a byte written out from its encoding -/

theorem test_decode_seekEsc :
    decodeTelemetry Cfg.default .seekEsc 0x1B = .seekEscEsc ∧
    decodeTelemetry Cfg.default .seekEsc 0x42 = .seekEscOther 0x42 := by decide
theorem test_decode_seekType :
    decodeTelemetry Cfg.default .seekTypeFirst 0x01 = .seekTypeBegin ∧
    decodeTelemetry Cfg.default .seekTypeFirst 0x1A = .seekTypeEnd ∧
    decodeTelemetry Cfg.default .seekTypeFirst 0x1B = .seekTypeEscEsc ∧
    decodeTelemetry Cfg.default .seekTypeFirst 0x02 = .seekTypeOther 0x02 ∧
    decodeTelemetry Cfg.default .seekTypeRest 0x01 = .seekTypeBeginN ∧
    decodeTelemetry Cfg.default .seekTypeRest 0x1B = .seekTypeOtherN 0x1B := by decide
theorem test_decode_trailer :
    decodeTelemetry Cfg.default .endFill 0x02 = .endFillFill 0x02 ∧
    decodeTelemetry Cfg.default .trailerFirst 0x67 = .trailerCrcLo 0x67 ∧
    decodeTelemetry Cfg.default .trailerSecond 0xDE = .trailerCrcHi 0xDE := by decide
theorem test_decode_structure :
    decodeTelemetry Cfg.default .inMsg 0x1B = .inMsgEsc ∧
    decodeTelemetry Cfg.default .inMsg 0x00 = .inMsgZero ∧
    decodeTelemetry Cfg.default .inMsg 0x70 = .inMsgListClose ∧
    decodeTelemetry Cfg.default .inMsg 0b01110111 = .inMsgListPush 7 := by decide
theorem test_decode_empty :
    decodeTelemetry Cfg.default .inMsg 0b01000000 = .inMsgBoolEmpty ∧
    decodeTelemetry Cfg.default .inMsg 0b01010000 = .inMsgIntEmpty ∧
    decodeTelemetry Cfg.default .inMsg 0b01100000 = .inMsgUintEmpty := by decide
theorem test_decode_scalars :
    decodeTelemetry Cfg.default .inMsg 0b00000110 = .inMsgOctet 6 ∧
    decodeTelemetry Cfg.default .inMsg 0b01000001 = .inMsgBool 1 ∧
    decodeTelemetry Cfg.default .inMsg 0b01011001 = .inMsgInt 9 ∧
    decodeTelemetry Cfg.default .inMsg 0b01100010 = .inMsgUint 2 := by decide
theorem test_decode_illegal :
    decodeTelemetry Cfg.default .inMsg 0x1A = .inMsgIllegal 0x1A ∧
    decodeTelemetry Cfg.default .inMsg 0x3F = .inMsgIllegal 0x3F ∧
    decodeTelemetry Cfg.default .inMsg 0x80 = .inMsgIllegal 0x80 := by decide
theorem test_decode_accum :
    decodeTelemetry Cfg.default .accum 0x1B = .accumData 0x1B := by decide
theorem test_decode_fieldbus :
    decodeFieldbus Cfg.default .idle 0x09 true = .idleAddr ∧
    decodeFieldbus Cfg.default .idle 0x09 false = .idleOther 0x09 false ∧
    decodeFieldbus Cfg.default .idle 0x0A true = .idleOther 0x0A true ∧
    decodeFieldbus Cfg.default .addrMatched 0x04 false = .addrMatchedFunc false ∧
    decodeFieldbus Cfg.default .addrMatched 0x03 true = .addrMatchedOther 0x03 true ∧
    decodeFieldbus Cfg.default .collecting 0xB0 false = .collectingData 0xB0 false := by decide
theorem test_decode_request :
    decodeFrame Cfg.default [0x09, 0x04, 0x01, 0x07, 0x00, 0x02, 0xC0, 0xBE] =
      .ok (.reqReadInputRegisters 0x01 0x07 0x00 0x02 0xC0 0xBE) ∧
    decodeFrame Cfg.default [0x0A, 0x04, 0x01, 0x00, 0x00, 0x03, 0xB0, 0x8C] =
      .error (.notARequest [0x0A, 0x04, 0x01, 0x00, 0x00, 0x03, 0xB0, 0x8C]) ∧
    decodeFrame Cfg.default [0x09, 0x03, 0x01, 0x00, 0x00, 0x03, 0x05, 0x7F] =
      .error (.notARequest [0x09, 0x03, 0x01, 0x00, 0x00, 0x03, 0x05, 0x7F]) ∧
    decodeFrame Cfg.default [0x09, 0x04, 0x01] = .error (.notARequest [0x09, 0x04, 0x01]) := by decide
/-- Calls apply in any state (R123). -/
def anyCtx : Ctx := ⟨.inMsg, .idle⟩
theorem test_decode_responses :
    decode Cfg.default anyCtx (.call (.respReadInputRegisters 0 3)) = .ok (.respReadInputRegisters 0 3) ∧
    decode Cfg.default anyCtx (.call (.respExcIllegalFunction 3)) = .ok (.respExcIllegalFunction 3) ∧
    decode Cfg.default anyCtx (.call .respExcIllegalDataAddress) = .ok .respExcIllegalDataAddress := by decide
theorem test_decode_crc :
    decode Cfg.default anyCtx (.call (.crcReset .A)) = .ok (.crcReset .A) ∧
    decode Cfg.default anyCtx (.call (.crcFeed .B 9)) = .ok (.crcFeed .B 9) ∧
    decode Cfg.default anyCtx (.call (.crcLowByte .A)) = .ok (.crcLowByte .A) ∧
    decode Cfg.default anyCtx (.call (.crcHighByte .B)) = .ok (.crcHighByte .B) := by decide
theorem test_decode_store :
    decode Cfg.default anyCtx (.call .storeReset) = .ok .storeReset ∧
    decode Cfg.default anyCtx (.call (.storePresentCode [1])) = .ok (.storePresentCode [1]) ∧
    decode Cfg.default anyCtx (.call (.storePresentValue 5)) = .ok (.storePresentValue 5) ∧
    decode Cfg.default anyCtx (.call .storeCommit) = .ok .storeCommit ∧
    decode Cfg.default anyCtx (.call .storeRegisterCount) = .ok .storeRegisterCount ∧
    decode Cfg.default anyCtx (.call (.storeReadRegister 8)) = .ok (.storeReadRegister 8) := by decide
theorem test_decode_engines :
    decode Cfg.default anyCtx (.call (.decoderFeed 1)) = .ok (.decoderFeed 1) ∧
    decode Cfg.default anyCtx (.call (.slaveOnByte 9 true)) = .ok (.slaveOnByte 9 true) ∧
    decode Cfg.default anyCtx (.call .timerTick) = .ok .timerTick ∧
    decode Cfg.default anyCtx (.call (.timerRx 9)) = .ok (.timerRx 9) := by decide
theorem test_responseLength :
    responseLength [0x09, 0x04, 0x06] = some 11 ∧ responseLength [0x09, 0x84, 0x02] = some 5 ∧
    responseLength [0x09, 0x04] = none := by decide

/-! ### Bare words of the opcode table (log entry 4) -/

theorem test_tableWord_bytes :
    decodeTableWord 8 0x1B = some .seekEscEsc ∧ decodeTableWord 8 0x40 = some .inMsgBoolEmpty ∧
    decodeTableWord 8 0x77 = some (.inMsgListPush 7) ∧ decodeTableWord 8 0x09 = some .idleAddr ∧
    decodeTableWord 8 0x05 = some (.inMsgOctet 5) ∧
    decodeTableWord 8 0xFE = some (.seekEscOther 0xFE) := by decide
theorem test_tableWord_frame :
    decodeTableWord 64 0xBFB0030000010409 =
      some (.reqReadInputRegisters 0x01 0x00 0x00 0x03 0xB0 0xBF) ∧
    decodeTableWord 16 0 = none := by decide +kernel
theorem test_withFetchWord :
    nextOf (step (State.reset.withFetchWord 8 0x77)) =
      nextOf (exec (.inMsgListPush 7) (withDec .inMsg [])) := by decide +kernel

/-! ### The CRC-16 Engine (V-C01, V-C05, V-C07, R143, R144) -/

theorem test_crcReset : nextOf (exec (.crcReset .B) { State.reset with crcB := 0x1234 }) =
    some State.reset := by decide
theorem test_crcFeed_A : (nextOf (exec (.crcFeed .A 0x09) State.reset)).map (·.crcA) =
    some 0x467F := by decide +kernel
theorem test_crcFeed_B : (nextOf (exec (.crcFeed .B 0x09) State.reset)).map (·.crcB) =
    some 0x9246 := by decide +kernel
theorem test_crcLowByte :
    retOf (exec (.crcLowByte .A) { State.reset with crcA := 0xBFB0 }) = some (.u8 0xB0) ∧
    retOf (exec (.crcLowByte .B) { State.reset with crcB := 0x2E33 }) = some (.u8 0xCC) := by decide
theorem test_crcHighByte :
    retOf (exec (.crcHighByte .A) { State.reset with crcA := 0xBFB0 }) = some (.u8 0xBF) ∧
    retOf (exec (.crcHighByte .B) { State.reset with crcB := 0x2E33 }) = some (.u8 0xD1) := by decide

/-! ### The Register Store (V-S01, V-S02, V-S09, V-S11, V-S13, V-S14, V-S15 to V-S17) -/

theorem test_storeReset : (nextOf (exec .storeReset { State.reset with store :=
      { State.reset.store with sset := [true, false, true], det := some 2 } })) =
    some State.reset := by decide
theorem test_presentCode : (nextOf (exec (.storePresentCode [1, 0, 0x10, 7, 0, 0xFF]) State.reset)).map
    (·.store.det) = some (some 2) := by decide
theorem test_presentCode_suffix : (nextOf (exec (.storePresentCode [1, 0, 0x10, 7, 0, 0xFE])
    (afterFrame1 (some 2)))).map (·.store.det) = some none := by decide
theorem test_presentValue : (nextOf (exec (.storePresentValue (-2)) (afterFrame1 (some 2)))).map
    (fun t => (t.store.staged, t.store.sset, t.store.det)) =
    some ([0, 0, 0, 0, 0xFFFF, 0xFFFE], [false, false, true], none) := by decide
theorem test_presentValue_truncates : (nextOf (exec (.storePresentValue 0x123456789)
    (afterFrame1 (some 0)))).map (·.store.staged) = some [0x2345, 0x6789, 0, 0, 0, 0] := by decide
theorem test_commit : (nextOf (exec .storeCommit (afterFrame1 none))).map (·.store.live) =
    some [0x0000, 0x04D3, 0xFFFF, 0xFFFE, 0x0000, 0x0000] := by decide
theorem test_registerCount : retOf (exec .storeRegisterCount State.reset) = some (.u8 8) := by decide
theorem test_readRegister : retOf (exec (.storeReadRegister 7) (afterFrame1 none)) =
    some (.u16 0x01F4) := by decide
theorem test_readRegister_outOfRange : faultOf (exec (.storeReadRegister 8) State.reset) =
    some (.readRegisterOutOfRange 8) := by decide

/-! ### The decoder: framing (the trace of V-D02, R203 to R211, V-D24 for the reset) -/

theorem test_seekEscEsc : (nextOf (exec .seekEscEsc State.reset)).map
    (fun t => (t.dec.state, t.dec.k)) = some (.seekEsc, 1) := by decide +kernel
theorem test_seekEscEsc_fourth : (nextOf (exec .seekEscEsc { State.reset with dec :=
      { Dec.powerOn with k := 3 } })).map (fun t => (t.dec.state, t.dec.k)) =
    some (.seekType, 0) := by decide +kernel
theorem test_seekEscOther : nextOf (exec (.seekEscOther 0x42) { State.reset with dec :=
      { Dec.powerOn with k := 1 } }) = some State.reset := by decide +kernel
theorem test_seekTypeBegin : (nextOf (exec .seekTypeBegin (withDec .seekType []))).map
    (fun t => (t.dec.state, t.dec.j)) = some (.seekType, 1) := by decide +kernel
theorem test_seekTypeEnd : (nextOf (exec .seekTypeEnd (withDec .seekType []))).map
    (·.dec.state) = some .endFill := by decide +kernel
theorem test_seekTypeEscEsc : nextOf (exec .seekTypeEscEsc (withDec .seekType [])) =
    some State.reset := by decide +kernel
theorem test_seekTypeOther : nextOf (exec (.seekTypeOther 0x02) (withDec .seekType [])) =
    some State.reset := by decide +kernel
theorem test_seekTypeBeginN : (nextOf (exec .seekTypeBeginN { State.reset with dec :=
      { Dec.powerOn with state := .seekType, j := 3, scale := 2, lv := fourLevels } })).map
    (fun t => (t.dec.state, t.dec.j, t.dec.lv, t.dec.scale)) = some (.inMsg, 0, [], 0) := by
  decide +kernel
theorem test_seekTypeOtherN : nextOf (exec (.seekTypeOtherN 0x1B) { State.reset with dec :=
      { Dec.powerOn with state := .seekType, j := 2 } }) = some State.reset := by decide +kernel
theorem test_endFillFill : (nextOf (exec (.endFillFill 0x09) (withDec .endFill []))).map
    (fun t => (t.dec.state, t.dec.snap)) = some (.trailer, 0x9246) := by decide +kernel
theorem test_trailerCrcLo : (nextOf (exec (.trailerCrcLo 0x67) (withDec .trailer []))).map
    (fun t => (t.dec.tlo, t.dec.t, t.crcB)) = some (0x67, 1, 0xFFFF) := by decide

/-- TRAILER with the low byte of the checksum of V-C07 received, pair 2 staged as 7. -/
def trailerSecond : State :=
  { afterFrame1 none with
    store := { (afterFrame1 none).store with
      staged := [0, 0, 0, 0, 0, 7], sset := [false, false, true] }
    dec := { Dec.powerOn with state := .trailer, t := 1, snap := 0x2E33, tlo := 0xCC } }

theorem test_trailerCrcHi_match : (nextOf (exec (.trailerCrcHi 0xD1) trailerSecond)).map
    (fun t => (t.store.live, t.dec)) =
    some ([0x0000, 0x04D3, 0xFFFF, 0xFFFE, 0x0000, 0x0007], Dec.powerOn) := by decide
theorem test_trailerCrcHi_mismatch : (nextOf (exec (.trailerCrcHi 0xD2) trailerSecond)).map
    (fun t => (t.store.live, t.store.sset, t.dec)) =
    some ((afterFrame1 none).store.live, [false, false, false], Dec.powerOn) := by decide

/-! ### The decoder: structure (V-D02, V-D05, V-D08b, R213 to R224) -/

theorem test_inMsgEsc : (nextOf (exec .inMsgEsc (withDec .inMsg fourLevels))).map
    (fun t => (t.dec.state, t.dec.k, t.dec.d)) = some (.seekEsc, 1, 4) := by decide +kernel
theorem test_inMsgZero : (nextOf (exec .inMsgZero (withDec .inMsg [⟨6, 5⟩]))).map (·.dec.lv) =
    some [] := by decide +kernel
theorem test_inMsgListClose : (nextOf (exec .inMsgListClose (withDec .inMsg [⟨3, 1⟩, ⟨2, 0⟩]))).map
    (·.dec.lv) = some [⟨2, 1⟩] := by decide +kernel
theorem test_inMsgListPush : (nextOf (exec (.inMsgListPush 6) (withDec .inMsg []))).map (·.dec.lv) =
    some [⟨6, 0⟩] := by decide +kernel
theorem test_inMsgListPush_overflow : nextOf (exec (.inMsgListPush 1)
    (withDec .inMsg (List.replicate 9 ⟨1, 0⟩))) = some State.reset := by decide +kernel
theorem test_inMsgBoolEmpty : (nextOf (exec .inMsgBoolEmpty
    (withDec .inMsg [⟨1, 0⟩, ⟨1, 0⟩, ⟨1, 0⟩, ⟨2, 0⟩]))).map (·.dec.lv) = some [⟨2, 1⟩] := by
  decide +kernel
theorem test_inMsgIntEmpty : (nextOf (exec .inMsgIntEmpty { afterFrame1 (some 0) with dec :=
      { Dec.powerOn with state := .inMsg, lv := ⟨7, 5⟩ :: fourLevels } })).map
    (fun t => (t.store.sset, t.dec.lv.head?)) =
    some ([true, false, false], some ⟨7, 6⟩) := by decide +kernel
theorem test_inMsgUintEmpty : (nextOf (exec .inMsgUintEmpty { afterFrame1 (some 0) with dec :=
      { Dec.powerOn with state := .inMsg, lv := ⟨7, 5⟩ :: fourLevels } })).map
    (fun t => (t.store.sset, t.dec.lv.head?)) =
    some ([false, false, false], some ⟨7, 6⟩) := by decide +kernel
theorem test_inMsgOctet : (nextOf (exec (.inMsgOctet 4) (withDec .inMsg [⟨6, 0⟩]))).map
    (fun t => (t.dec.state, t.dec.tag, t.dec.rem, t.dec.lv)) =
    some (.accum, .octet, 4, [⟨6, 0⟩]) := by decide +kernel
theorem test_inMsgOctet_biased : (nextOf (exec (.inMsgOctet 1) { State.reset with
      cfg := biased, dec := { Dec.powerOn with state := .inMsg, lv := [⟨6, 0⟩] } })).map
    (fun t => (t.dec.state, t.dec.lv)) = some (.inMsg, [⟨6, 1⟩]) := by decide +kernel
theorem test_inMsgBool : (nextOf (exec (.inMsgBool 1) (withDec .inMsg []))).map
    (fun t => (t.dec.state, t.dec.tag, t.dec.rem)) = some (.accum, .bool, 1) := by decide +kernel
theorem test_inMsgInt : (nextOf (exec (.inMsgInt 4) (withDec .inMsg []))).map
    (fun t => (t.dec.state, t.dec.tag, t.dec.rem)) = some (.accum, .int, 4) := by decide +kernel
theorem test_inMsgInt_overflow : nextOf (exec (.inMsgInt 9) { State.reset with
      cfg := { Cfg.default with elemBuf := 8 }, dec := { Dec.powerOn with state := .inMsg } }) =
    some { State.reset with cfg := { Cfg.default with elemBuf := 8 } } := by decide +kernel
theorem test_inMsgUint : (nextOf (exec (.inMsgUint 2) (withDec .inMsg []))).map
    (fun t => (t.dec.state, t.dec.tag, t.dec.rem)) = some (.accum, .uint, 2) := by decide +kernel
theorem test_inMsgIllegal : nextOf (exec (.inMsgIllegal 0x85) (withDec .inMsg fourLevels)) =
    some State.reset := by decide +kernel
theorem test_accumData_code : (nextOf (exec (.accumData 0xFF)
    (atLast .octet [1, 0, 2, 8, 0] 0 (⟨7, 0⟩ :: fourLevels)))).map
    (fun t => (t.store.det, t.dec.state, t.dec.lv.head?)) =
    some (some 1, .inMsg, some ⟨7, 1⟩) := by decide +kernel
theorem test_accumData_value : (nextOf (exec (.accumData 0x39) { atLast .int [0, 0, 0x30] 0xFF
      (⟨7, 5⟩ :: fourLevels) with store := { State.reset.store with det := some 0 } })).map
    (fun t => (t.store.staged, t.store.sset)) =
    some ([0x0000, 0x04D3, 0, 0, 0, 0], [true, false, false]) := by decide +kernel

/-! ### toScale (V-T03, V-T07, V-T19, V-T21) -/

theorem test_toScale :
    toScale (-305) (-1) = -31 ∧ toScale 1449 (-2) = 14 ∧ toScale 1 127 = 0 ∧
    toScale 0x7FFFFFFFFFFFFFFF (-1) = -858993459 := by decide +kernel

/-! ### The Slave and the timer (V-F01, V-F03, V-F04, V-F11 to V-F14, V-TV1, V-TV5) -/

/-- The output of a frame. -/
def frameOut (bytes : List Byte) : Option (List TxEvent) := some (.gap :: bytes.map .byte)

theorem test_idleAddr : (nextOf (exec .idleAddr State.reset)).map (·.slv.state) =
    some .addrMatched := by decide
theorem test_idleOther : nextOf (exec (.idleOther 0x09 false) State.reset) = some State.reset := by
  decide
theorem test_addrMatchedFunc : (nextOf (exec (.addrMatchedFunc false)
    (withSlave .addrMatched [9, 9, 9, 9, 9, 9, 9] 0))).map (·.slv) =
    some { state := .collecting, buf := [4, 9, 9, 9, 9, 9, 9], n := 1 } := by decide
theorem test_addrMatchedOther : (nextOf (exec (.addrMatchedOther 0x03 false)
    (withSlave .addrMatched [0, 0, 0, 0, 0, 0, 0] 0))).map (fun t => (t.slv.state, t.tx)) =
    some (.idle, []) := by decide
theorem test_collectingData_last : txOf (exec (.collectingData 0xBF false)
    (withSlave .collecting [4, 1, 0, 0, 3, 0xB0, 0] 6)) =
    frameOut [0x09, 0x04, 0x06, 0, 1, 0, 2, 0, 0, 0x9B, 0x53] := by decide +kernel
theorem test_collectingData_badChecksum : (nextOf (exec (.collectingData 0xBE false)
    (withSlave .collecting [4, 1, 0, 0, 3, 0xB0, 0] 6))).map (fun t => (t.tx, t.slv.state, t.slv.n)) =
    some ([], .idle, 0) := by decide +kernel
theorem test_reqReadInputRegisters : txOf (exec (.reqReadInputRegisters 1 7 0 1 0x80 0xBF)
    (afterFrame1 none)) = frameOut [0x09, 0x04, 0x02, 0x01, 0xF4, 0x58, 0xE6] := by decide +kernel
theorem test_reqReadInputRegisters_count9 : txOf (exec (.reqReadInputRegisters 1 0 0 9 0x30 0xB8)
    State.reset) = frameOut [0x09, 0x84, 0x02, 0x43, 0x03] := by decide +kernel
theorem test_frame_foreignAddress : nextOf (step (given (.frame
    [0x0A, 0x04, 0x01, 0x00, 0x00, 0x03, 0xB0, 0x8C]) State.reset)) = some State.reset := by
  decide +kernel
theorem test_frame_otherFunction : (nextOf (step (given (.frame
    [0x09, 0x03, 0x01, 0x00, 0x00, 0x03, 0x05, 0x7F]) State.reset))).map (fun t => (t.tx, t.slv.state)) =
    some ([], .idle) := by decide +kernel
theorem test_respReadInputRegisters : txOf (exec (.respReadInputRegisters 3 2) (afterFrame1 none)) =
    frameOut [0x09, 0x04, 0x04, 0x04, 0xD3, 0xFF, 0xFF, 0x83, 0x3D] := by decide +kernel
theorem test_respExcIllegalFunction : ((nextOf (exec (.respExcIllegalFunction 0x03) State.reset)).map
    (fun t => t.tx.take 4)) = frameOut [0x09, 0x83, 0x01] := by decide +kernel
theorem test_respExcIllegalDataAddress : txOf (exec .respExcIllegalDataAddress State.reset) =
    frameOut [0x09, 0x84, 0x02, 0x43, 0x03] := by decide +kernel
theorem test_decoderFeed : nextOf (exec (.decoderFeed 0x00) State.reset) = some State.reset := by
  decide +kernel
theorem test_slaveOnByte : (nextOf (exec (.slaveOnByte 0x09 true) State.reset)).map (·.slv.state) =
    some .addrMatched := by decide
theorem test_timerTick : nextOf (exec .timerTick State.reset) = some State.reset ∧
    (nextOf (exec .timerTick { State.reset with tmr := { elapsed := 3 } })) = some State.reset := by
  decide
theorem test_timerRx : (nextOf (exec (.timerRx 0x09) State.reset)).map
    (fun t => (t.slv.state, t.tmr.elapsed)) = some (.addrMatched, 0) := by decide
theorem test_timerRx_notQuiet : (nextOf (exec (.timerRx 0x09) { State.reset with
    tmr := { elapsed := 3 } })).map (fun t => (t.slv.state, t.tmr.elapsed)) = some (.idle, 0) := by
  decide
theorem test_refused_row : refusalOf (exec .inMsgEsc State.reset) = some .rowNotSelected ∧
    refusalOf (step { State.reset with cfg := { Cfg.default with tSilent := 0 } }) =
      some .illFormedConfig := by decide

/-! ### Witnesses: states and operands that meet the hypotheses of the obligations, clause by clause -/

theorem witness_DecodeOfEncode : ∃ (c : Cfg) (x : Ctx), c.wf = true ∧
    (∀ i ∈ [Instr.inMsgListPush 15, .inMsgOctet 1, .idleOther 0x09 false,
        .reqReadInputRegisters 1 0 0 3 0 0, .storePresentCode (List.replicate 15 0)],
      i.wellFormed c = true ∧ x.agrees i.rowState = true) :=
  ⟨Cfg.default, ⟨.inMsg, .idle⟩, by decide⟩
/-- The largest register file R10 admits. -/
def largest : Cfg := { Cfg.default with codeTable := List.replicate 62 [1, 2, 3, 4, 5] }
theorem witness_EveryByteSelectsOneRow : largest.wf = true ∧ biased.wf = true := by decide
theorem witness_ReceiverTellsResponseLength : ∃ (c : Cfg) (ws : List Word16), c.wf = true ∧
    ws.length = c.nReg := 
  ⟨largest, List.replicate 126 0, by decide +kernel⟩
theorem witness_StepRunsDecodedInstruction : ∃ (s : State) (e : Event) (i : Instr),
    s.cfg.wf = true ∧ s.events = [e] ∧ decode s.cfg s.ctx e = .ok i :=
  ⟨given (.telemetry 0x1B) State.reset, _, .seekEscEsc, by decide, rfl, rfl⟩
theorem witness_StepWithoutEventOrConfiguration :
    (∃ s : State, s.cfg.wf = true ∧ s.events = []) ∧
    (∃ s : State, s.cfg.wf = false ∧ s.events ≠ []) :=
  ⟨⟨State.reset, by decide⟩,
    ⟨given (.telemetry 0) { State.reset with cfg := { Cfg.default with tSilent := 0 } }, by decide⟩⟩
theorem witness_FeedRunsTheSelectedRow : busy.cfg.wf = true := by decide
theorem witness_OnByteRunsTheSelectedRow : ∃ s : State, s.Inv ∧ s.slv.state = .collecting ∧ s.slv.n = 6 :=
  ⟨busy, busy_inv, by decide⟩
theorem witness_UnselectedByteRowRefused_state : ∃ (s : State) (i : Instr), i.rowState ≠ .frame ∧
    i.rowState ≠ .operation ∧ s.ctx.agrees i.rowState = false :=
  ⟨State.reset, .trailerCrcHi 0, by decide⟩
theorem witness_UnselectedByteRowRefused_operand : ∃ (s : State) (i : Instr), i.rowState ≠ .frame ∧
    i.rowState ≠ .operation ∧ s.ctx.agrees i.rowState = true ∧ i.wellFormed s.cfg = false :=
  ⟨State.reset, .seekEscOther 0x1B, by decide⟩
theorem witness_StepNeverMeetsUnselectedRow : ∃ (s : State) (r : Refusal), step s = .refused r :=
  ⟨{ State.reset with cfg := { Cfg.default with tSilent := 0 } }, .illFormedConfig, rfl⟩
theorem witness_PowerOnValues : (5 : Nat) < 2 * Cfg.default.nCodes ∧ (2 : Nat) < Cfg.default.nCodes := by
  decide
theorem witness_PowerOnKeepsInvariants : Cfg.wf largest = true := by decide
theorem witness_StepKeepsInvariants : ∃ s t : State, s.Inv ∧ step s = .next t ∧ t ≠ s :=
  ⟨given (.fieldbus 0xBF false) busy, _, inv_of_check _ (by decide), step_after _ (by decide +kernel),
    by decide +kernel⟩
theorem witness_ConfigurationNeverChanges : ∃ s t : State, step s = .next t ∧ t.store ≠ s.store :=
  ⟨given (.call .storeCommit) busy, _, step_after _ (by decide +kernel), by decide +kernel⟩
theorem witness_TransmitStreamOnlyGrows : ∃ s t : State, step s = .next t ∧ t.tx ≠ s.tx :=
  ⟨given (.fieldbus 0xBF false) busy, _, step_after _ (by decide +kernel), by decide +kernel⟩
theorem witness_EnvironmentNeverStopsTheBlock :
    ∀ e ∈ [Event.telemetry 0x1B, .fieldbus 0xBF false, .call (.decoderFeed 0), .call (.slaveOnByte 9 true),
        .call .timerTick, .call (.timerRx 0xBF)],
      (given e busy).Inv ∧ (given e busy).events = e :: [] ∧ e.fromEnvironment = true := by
  intro e h
  refine ⟨inv_of_check _ ?_, rfl, ?_⟩ <;> revert e <;> decide
theorem witness_OnlyOutOfRangeReadFaults : ∃ s t : State, s.Inv ∧ t.Inv ∧
    step s = .fault (.readRegisterOutOfRange 8) ∧ step t = .fault (.readRegisterOutOfRange 8) ∧
    s.events = [.call (.storeReadRegister 8)] ∧ t.events = [.call (.respReadInputRegisters 7 2)] :=
  ⟨given (.call (.storeReadRegister 8)) busy, given (.call (.respReadInputRegisters 7 2)) busy,
    inv_of_check _ (by decide), inv_of_check _ (by decide), rfl, rfl, rfl, rfl⟩
theorem witness_PresentCodeDetects : ∃ (s : State) (p : List Byte) (k : Nat), k = 2 ∧ p.length = 6 ∧
    p[5]? = some 0xFF ∧ s.cfg.codeTable[k]? = some (p.take 5) ∧
    ∀ m, m < k → s.cfg.codeTable[m]? ≠ some (p.take 5) :=
  ⟨State.reset, [1, 0, 0x10, 7, 0, 0xFF], 2, by decide⟩
theorem witness_PresentValueStages : ∃ s t : State, s.store.Inv s.cfg ∧ s.store.det = none ∧
    t.store.Inv t.cfg ∧ t.store.det = some 2 :=
  ⟨afterFrame1 none, busy, (inv_of_check _ (by decide)).store, rfl, busy_inv.store, rfl⟩
theorem witness_CommitUpdatesEveryPair : ∃ s t : State, s.store.Inv s.cfg ∧ t.store.Inv t.cfg ∧
    s.store.sset[0]? = some false ∧ 1 < s.cfg.pPersist ∧ s.store.sset[1]? = some false ∧
    s.cfg.pPersist ≤ 2 ∧ 2 < s.cfg.nCodes ∧ s.store.sset[2]? = some false ∧
    t.store.sset[2]? = some true :=
  ⟨afterFrame1 none, trailerSecond, (inv_of_check _ (by decide)).store,
    (inv_of_check _ (by decide)).store, by decide⟩
theorem witness_RegisterFileReads : busy.Inv ∧ 2 ≤ 7 ∧ 7 < 2 + 2 * busy.cfg.nCodes ∧
    2 + 2 * busy.cfg.nCodes ≤ 8 := ⟨busy_inv, by decide⟩
theorem witness_PresentedValueReadableAfterCommit : ∃ (s : State) (code : List Byte) (k : Nat), s.Inv ∧
    k = 2 ∧ s.cfg.codeTable[k]? = some code ∧ ∀ m, m < k → s.cfg.codeTable[m]? ≠ some code :=
  ⟨busy, [1, 0, 0x10, 7, 0], 2, busy_inv, by decide⟩
theorem witness_SeekEscEscapeCounts : ∃ s t : State, s.dec.state = .seekEsc ∧ s.dec.k + 1 = 4 ∧
    t.dec.state = .seekEsc ∧ t.dec.k = 2 :=
  ⟨{ State.reset with dec := { Dec.powerOn with k := 3 } },
    { State.reset with dec := { Dec.powerOn with k := 2 } }, by decide⟩
/-- SEEK_TYPE with `j` begin bytes seen. -/
def seekTypeAt (j : Nat) : State :=
  { State.reset with dec := { Dec.powerOn with state := .seekType, j := j } }
theorem witness_SeekTypeBeginsOrEnds : (seekTypeAt 0).dec.state = .seekType ∧
    (seekTypeAt 0).dec.j = 0 ∧ 1 ≤ (seekTypeAt 1).dec.j ∧ (seekTypeAt 1).dec.j ≠ 3 ∧
    (seekTypeAt 2).dec.j ≠ 3 ∧ (seekTypeAt 3).dec.j = 3 := by decide
theorem witness_DesyncRowsReset : ∃ (s t u v : State) (b b' : Byte), s.dec.state = .seekEsc ∧
    b ≠ s.cfg.escByte ∧ t.dec.state = .seekType ∧ t.dec.j = 0 ∧ b ≠ 0x01 ∧ b ≠ 0x1A ∧
    b ≠ t.cfg.escByte ∧ u.dec.state = .seekType ∧ 1 ≤ u.dec.j ∧ v.dec.state = .inMsg ∧
    b' ≠ v.cfg.escByte ∧ b'.toNat / 16 ∈ [1, 2, 3, 8, 9, 10, 11, 12, 13, 14, 15] :=
  ⟨State.reset, seekTypeAt 0, seekTypeAt 1, withDec .inMsg fourLevels, 0x02, 0x10, by decide⟩
theorem witness_FillAndFirstTrailerByte : (withDec .endFill []).dec.state = .endFill ∧
    (withDec .trailer []).dec.state = .trailer ∧ (withDec .trailer []).dec.t = 0 := by decide
theorem witness_TrailerVerdict : trailerSecond.dec.state = .trailer ∧ trailerSecond.dec.t ≠ 0 := by
  decide
theorem witness_EscapeAndCloseRows : ∃ s t : State, s.dec.state = .inMsg ∧ s.dec.lv = [] ∧
    s.cfg.escByte ≠ 0x70 ∧ t.dec.state = .inMsg ∧ t.dec.lv = ⟨3, 1⟩ :: [⟨2, 1⟩] ∧
    t.cfg.escByte ≠ 0x70 :=
  ⟨withDec .inMsg [], withDec .inMsg [⟨3, 1⟩, ⟨2, 1⟩], by decide⟩
theorem witness_ChildDoneClosesCompletedLevels :
    (∀ l ∈ [Level.mk 1 0, Level.mk 15 14], l.rd + 1 = l.exp) ∧
    (Level.mk 6 3).rd + 1 ≠ (Level.mk 6 3).exp := by decide
theorem witness_ListPushOpensLevel : ∃ (s t : State) (n : Nibble), s.dec.state = .inMsg ∧
    t.dec.state = .inMsg ∧ n ≠ 0 ∧ BitVec.ofNat 8 (0x70 + n.toNat) ≠ s.cfg.escByte ∧
    s.dec.lv.length + 1 = s.cfg.maxDepth ∧ t.dec.lv.length = t.cfg.maxDepth :=
  ⟨withDec .inMsg (List.replicate 8 ⟨1, 0⟩), withDec .inMsg (List.replicate 9 ⟨1, 0⟩), 15, by decide⟩
/-- IN_MSG with an element buffer of 14 bytes. -/
def shortBuffer : State :=
  { State.reset with cfg := { Cfg.default with elemBuf := 14 }, dec :=
      { Dec.powerOn with state := .inMsg } }
theorem witness_ScalarRowsStartAccumulating : shortBuffer.dec.state = .inMsg ∧
    shortBuffer.cfg.tlLenBias < (14 : Nibble).toNat ∧ shortBuffer.cfg.tlLenBias < (1 : Nibble).toNat ∧
    (14 : Nibble).toNat - shortBuffer.cfg.tlLenBias ≤ shortBuffer.cfg.elemBuf ∧
    ¬ (15 : Nibble).toNat - shortBuffer.cfg.tlLenBias ≤ shortBuffer.cfg.elemBuf ∧
    (∀ b ∈ [0x0F, 0x4F, 0x5F, 0x6F], (b : Byte) ≠ shortBuffer.cfg.escByte) := by decide
theorem witness_InlineElementsComplete : ∃ s t : State, s.dec.state = .inMsg ∧ t.dec.state = .inMsg ∧
    (∀ b ∈ [0x40, 0x50, 0x60], (b : Byte) ≠ s.cfg.escByte) ∧
    s.dec.lv.length = s.cfg.codeDepth ∧ s.dec.lv.head?.map (·.rd) = some s.cfg.valuePos ∧
    (1 : Nibble) ≠ 0 ∧ (1 : Nibble).toNat ≤ t.cfg.tlLenBias ∧
    (∀ b ∈ [0x01, 0x41, 0x51, 0x61], (b : Byte) ≠ t.cfg.escByte) ∧
    t.dec.lv.length = t.cfg.codeDepth ∧ t.dec.lv.head?.map (·.rd) = some t.cfg.codePos :=
  ⟨withDec .inMsg (⟨7, 5⟩ :: fourLevels),
    { withDec .inMsg (⟨7, 0⟩ :: fourLevels) with cfg := biased }, by decide⟩
theorem witness_PayloadByteCollected : ∃ s t : State, s.dec.state = .accum ∧ s.dec.rem = 2 ∧
    t.dec.state = .accum ∧ t.dec.rem = 1 ∧ t.dec.lv = [] :=
  ⟨{ State.reset with dec := { Dec.powerOn with state := .accum, rem := 2 } }, atLast .bool [] 0 [],
    by decide⟩
theorem witness_LastPayloadByteCompletesElement :
    ∀ l ∈ [Level.mk 7 0, Level.mk 7 4, Level.mk 7 5, Level.mk 7 6],
      let s := atLast .int [0x12] 0 (l :: fourLevels)
      s.dec.state = .accum ∧ s.dec.rem = 1 ∧ s.dec.buf ++ [0x34] = [0x12, 0x34] ∧
      s.dec.lv = l :: fourLevels ∧ s.dec.lv.length = s.cfg.codeDepth ∧
      s.cfg.scalePos ≠ s.cfg.valuePos := by decide
theorem witness_ScalarElementDeliversItsPayload : ∃ (s : State) (p q : List Byte),
    s.dec.state = .inMsg ∧ p ≠ [] ∧ p.length = 1 ∧ q.length + s.cfg.tlLenBias = 15 ∧
    q.length ≤ s.cfg.elemBuf ∧
    (elementBytes s.cfg .octet p).head? ≠ some s.cfg.escByte ∧
    (elementBytes s.cfg .uint q).head? ≠ some s.cfg.escByte :=
  ⟨withDec .inMsg [], [0x1B], List.replicate 15 0x00, by decide⟩
theorem witness_IntegerPayloadValue : ∃ p q : List Byte, p.length ≤ 7 ∧ q.length = 8 :=
  ⟨List.replicate 7 0xFF, List.replicate 8 0x80, by decide⟩
theorem witness_ToScaleRoundsExactQuotient :
    (0xFF : BitVec 8).toInt = -((1 : Nat) : Int) ∧ (0x80 : BitVec 8).toInt = -((128 : Nat) : Int) := by
  decide
theorem witness_ToScaleMultiplies :
    (0x00 : BitVec 8).toInt = ((0 : Nat) : Int) ∧ (0x7F : BitVec 8).toInt = ((127 : Nat) : Int) := by
  decide
theorem witness_BeginSequenceBeginsMessage : (afterFrame1 (some 1)).dec.state = .seekEsc ∧
    (afterFrame1 (some 1)).dec.k = 0 := by decide
theorem witness_WholeMessageCommits : ∃ (s m : State) (elements : List Byte),
    feedAll (beginSequence s.cfg ++ elements) s = m ∧ m.dec.state = .inMsg ∧
    m.crcB = crcOf .B (beginSequence s.cfg ++ elements) ∧ elements ≠ [] :=
  ⟨State.reset, _, [0x71, 0x02, 0xAA, 0xBB], rfl, by decide +kernel⟩
theorem witness_WrongTrailerDiscards : ∃ (s : State) (fill lo hi : Byte), s.dec.state = .inMsg ∧
    [lo, hi] ≠ [crcLow .B (crcFold .B s.crcB (endSequence s.cfg fill)),
      crcHigh .B (crcFold .B s.crcB (endSequence s.cfg fill))] :=
  ⟨{ afterFrame1 none with dec := (withDec .inMsg []).dec }, 0, 0, 0, by decide +kernel⟩
theorem witness_LiveRegistersChangeOnlyOnVerifiedCommit : ∃ s t u v : State,
    (step s = .next t ∧ t.store.live ≠ s.store.live) ∧
    (step u = .next v ∧ v.store.live ≠ u.store.live) :=
  ⟨given (.call .storeCommit) busy, _, given (.telemetry 0xD1) trailerSecond, _,
    ⟨step_after _ (by decide +kernel), by decide +kernel⟩,
    ⟨step_after _ (by decide +kernel), by decide +kernel⟩⟩
theorem witness_BeginsWithinThirtyTwoBytes : busy.Inv ∧ busy.cfg = Cfg.default ∧
    busy.dec.state = .accum ∧ busy.dec.rem = 15 := ⟨busy_inv, by decide⟩
theorem witness_DecoderIndependentOfSlave : ∃ s t : State, t.cfg = s.cfg ∧ t.crcB = s.crcB ∧
    t.store = s.store ∧ t.dec = s.dec ∧ t.slv ≠ s.slv ∧ t.crcA ≠ s.crcA ∧ t.tx ≠ s.tx :=
  ⟨State.reset, { withSlave .collecting [4, 1, 0, 0, 0, 0, 0] 2 with crcA := 0, tx := [.gap] },
    by decide⟩
theorem witness_FieldbusNeverWritesStoreOrDecoder :
    ∀ e ∈ [Event.fieldbus 0xBF false, .frame [9, 4, 1, 0, 0, 3, 0xB0, 0xBF], .call (.slaveOnByte 9 true),
        .call .timerTick, .call (.timerRx 0xBF), .call .respExcIllegalDataAddress,
        .call (.respExcIllegalFunction 3), .call (.respReadInputRegisters 7 1)],
      (nextOf (step (given e busy))).isSome = true := by decide +kernel
theorem witness_AddressAndFunctionFilters : State.reset.slv.state = .idle ∧
    (0x0A : Byte) ≠ State.reset.cfg.devAddr ∧
    (withSlave .addrMatched [0, 0, 0, 0, 0, 0, 0] 0).slv.state = .addrMatched ∧
    (0x03 : Byte) ≠ 0x04 := by decide
/-- The Slave has six bytes of a request and waits for the last one; the Store is that of `frame1`. -/
def sixBytes (start count lo : Byte) : State :=
  { afterFrame1 none with slv :=
      { state := .collecting, n := 6, buf := [4, 1, start, 0, count, lo, 0] } }
theorem witness_CollectedByteStoredOrFrameDropped : ∃ s t : State, s.slv.state = .collecting ∧
    s.slv.n ≠ 6 ∧ t.slv.state = .collecting ∧ t.slv.n = 6 ∧ t.slv.buf = [4, 1, 0, 0, 3, 0xB0, 0] ∧
    [0xB0, 0xBE] ≠ [crcLow .A (crcOf .A [t.cfg.devAddr, 4, 1, 0, 0, 3]),
      crcHigh .A (crcOf .A [t.cfg.devAddr, 4, 1, 0, 0, 3])] :=
  ⟨withSlave .collecting [4, 0, 0, 0, 0, 0, 0] 5, sixBytes 0 3 0xB0, by decide +kernel⟩
theorem witness_CollectedByte_answered : (sixBytes 7 1 0x80).Inv ∧ (sixBytes 7 1 0x80).slv.n = 6 ∧
    (sixBytes 7 1 0x80).slv.buf = [0x04, 1, 7, 0, 1, 0x80, 0] ∧
    [0x80, 0xBF] = [crcLow .A (crcOf .A [0x09, 0x04, 1, 7, 0, 1]),
      crcHigh .A (crcOf .A [0x09, 0x04, 1, 7, 0, 1])] ∧ requestInRange Cfg.default 1 7 0 1 :=
  ⟨inv_of_check _ (by decide), by decide, by decide, by decide +kernel, by unfold requestInRange; decide⟩
theorem witness_CollectedByte_exception : (sixBytes 7 2 0xC0).Inv ∧ (sixBytes 7 2 0xC0).slv.n = 6 ∧
    (sixBytes 7 2 0xC0).slv.buf = [0x04, 1, 7, 0, 2, 0xC0, 0] ∧
    [0xC0, 0xBE] = [crcLow .A (crcOf .A [0x09, 0x04, 1, 7, 0, 2]),
      crcHigh .A (crcOf .A [0x09, 0x04, 1, 7, 0, 2])] ∧ ¬ requestInRange Cfg.default 1 7 0 2 :=
  ⟨inv_of_check _ (by decide), by decide, by decide, by decide +kernel, by unfold requestInRange; decide⟩
theorem witness_RequestAnsweredWithRegisters : (afterFrame1 none).Inv ∧
    (afterFrame1 none).slv.state = .idle ∧ requestInRange Cfg.default 1 0 0 8 ∧
    requestInRange Cfg.default 1 7 0 1 :=
  ⟨inv_of_check _ (by decide), by decide, by unfold requestInRange; decide,
    by unfold requestInRange; decide⟩
theorem witness_RequestOutOfRangeAnsweredWithException : State.reset.slv.buf.length = 7 ∧
    State.reset.slv.state = .idle ∧ ¬ requestInRange Cfg.default 1 7 0 2 ∧
    ¬ requestInRange Cfg.default 1 8 0 1 ∧ ¬ requestInRange Cfg.default 1 0 0 0 ∧
    ¬ requestInRange Cfg.default 0 0 0 1 ∧ ¬ requestInRange Cfg.default 1 0 1 1 := by
  unfold requestInRange; decide
theorem witness_RequestWithBadChecksumDropped : State.reset.slv.buf.length = 7 ∧
    State.reset.slv.state = .idle ∧
    [0x30, 0xB9] ≠ [crcLow .A (crcOf .A [0x09, 4, 1, 0, 0, 9]),
      crcHigh .A (crcOf .A [0x09, 4, 1, 0, 0, 9])] := by decide +kernel
theorem witness_NormalResponseEmitted : busy.store.live.length = 2 * busy.cfg.nCodes ∧
    (7 : Byte).toNat + (1 : Byte).toNat ≤ 2 + 2 * busy.cfg.nCodes ∧
    (8 : Byte).toNat + (0 : Byte).toNat ≤ 2 + 2 * busy.cfg.nCodes := by decide
theorem witness_IllegalFunctionNeverEmitted : ∃ (s t : State) (e : Event), s.Inv ∧ s.events = e :: [] ∧
    e.fromEnvironment = true ∧ step s = .next t ∧ t.tx ≠ s.tx :=
  ⟨given (.fieldbus 0xBF false) busy, _, _, inv_of_check _ (by decide), rfl, by decide,
    step_after _ (by decide +kernel), by decide +kernel⟩
theorem witness_QuietIgnoredOutsideIdle : busy.slv.state ≠ .idle ∧
    (withSlave .addrMatched [0, 0, 0, 0, 0, 0, 0] 0).slv.state ≠ .idle := by decide
theorem witness_RxComputesQuietAndResetsTimer : ∃ s t : State, s.Inv ∧ t.Inv ∧
    s.tmr.elapsed = s.cfg.tSilent ∧ t.tmr.elapsed < t.cfg.tSilent :=
  ⟨afterFrame1 none, busy, inv_of_check _ (by decide), busy_inv, by decide⟩
theorem witness_FrameIsItsByteEvents : busy.cfg.wf = true ∧ State.reset.cfg.wf = true := by decide

end Sys2Proof.Tests
end

namespace Sys2Proof.Machine

/-! SUPPORT. What a step can do, said once, and which side of the state each kind of row leaves alone;
with it the proof that no step changes the configuration. -/

/-! ### Outcomes that are a next state -/

theorem outcomeOf_next {r : Except Fault State} {t : State} : outcomeOf r = .next t ↔ r = .ok t := by
  cases r <;> simp

theorem SameSlaveSide.of_onRow {i : Instr} {s u t : State} (hu : SameSlaveSide s u)
    (h : onRow i s (.ok u) = .next t) : SameSlaveSide s t := by
  obtain ⟨-, ⟨⟩⟩ := onRow_next.mp h
  exact hu

theorem SameDecoderSide.of_onRow {i : Instr} {s u t : State} (hu : SameDecoderSide s u)
    (h : onRow i s (.ok u) = .next t) : SameDecoderSide s t := by
  obtain ⟨-, ⟨⟩⟩ := onRow_next.mp h
  exact hu

/-! ### The rows -/

theorem sameSlaveSide_escapeSeen (s : State) : SameSlaveSide s (escapeSeen s) := by
  unfold escapeSeen
  split <;> exact sameSlaveSide_setDec _ _

theorem sameSlaveSide_trailerHigh (b : Byte) (s : State) : SameSlaveSide s (trailerHigh b s) := by
  unfold trailerHigh
  split <;> exact (sameSlaveSide_setStore _ _).trans (sameSlaveSide_fullReset _)

theorem sameDecoderSide_collectByte {b : Byte} {s t : State} (h : collectByte b s = .ok t) :
    SameDecoderSide s t := by
  unfold collectByte at h
  dsimp only at h
  split at h
  · exact (sameDecoderSide_setSlv _ _).trans (sameDecoderSide_completeFrame h)
  · cases h
    exact sameDecoderSide_setSlv _ _

/-- A telemetry row leaves the configuration, the Slave's side, the events and the returned value. -/
theorem sameSlaveSide_exec {i : Instr} {x : TeleCtx} {s t : State} (hrow : i.rowState = .tele x)
    (h : exec i s = .next t) : SameSlaveSide s t := by
  have fed (b : Byte) := sameSlaveSide_feedCrcB b s
  cases i with
  | seekEscEsc => exact ((fed _).trans (sameSlaveSide_escapeSeen _)).of_onRow h
  | seekTypeBegin | seekTypeBeginN =>
    exact ((fed _).trans (sameSlaveSide_beginByteSeen _)).of_onRow h
  | seekEscOther | seekTypeEscEsc | seekTypeOther | seekTypeOtherN | inMsgIllegal =>
    exact ((fed _).trans (sameSlaveSide_fullReset _)).of_onRow h
  | seekTypeEnd | endFillFill | inMsgEsc | inMsgZero | inMsgListClose =>
    exact ((fed _).trans (sameSlaveSide_setDec _ _)).of_onRow h
  | trailerCrcLo => exact (sameSlaveSide_setDec _ _).of_onRow h
  | trailerCrcHi => exact (sameSlaveSide_trailerHigh _ _).of_onRow h
  | inMsgListPush => exact ((fed _).trans (sameSlaveSide_pushList _ _)).of_onRow h
  | inMsgBoolEmpty | inMsgIntEmpty | inMsgUintEmpty | inMsgOctet | inMsgBool | inMsgInt | inMsgUint =>
    exact ((fed _).trans (sameSlaveSide_scalarElement _ _ _)).of_onRow h
  | accumData => exact ((fed _).trans (sameSlaveSide_accumulate _ _)).of_onRow h
  | _ => cases hrow

/-- A fieldbus byte row, or a request frame, leaves the configuration, the decoder's side, the timer, the
events and the returned value. -/
theorem sameDecoderSide_exec {i : Instr} {s t : State}
    (hrow : i.rowState = .frame ∨ ∃ x, i.rowState = .bus x) (h : exec i s = .next t) :
    SameDecoderSide s t := by
  cases i with
  | idleOther => exact (SameDecoderSide.refl _).of_onRow h
  | idleAddr | addrMatchedFunc | addrMatchedOther => exact (sameDecoderSide_setSlv _ _).of_onRow h
  | collectingData =>
    obtain ⟨-, hcollect⟩ := onRow_next.mp h
    exact sameDecoderSide_collectByte hcollect
  | reqReadInputRegisters => exact sameDecoderSide_onFrame (outcomeOf_next.mp h)
  | _ => rcases hrow with hrow | ⟨_, hrow⟩ <;> cases hrow

/-- An operation called by itself (R118) keeps the configuration: a CRC operation writes a checksum
register or the returned value, a Store operation the Store or the returned value, and the others are
events of the two engines and the timer. -/
theorem exec_operation_cfg {i : Instr} {s t : State} (hrow : i.rowState = .operation)
    (h : exec i s = .next t) : t.cfg = s.cfg := by
  cases i with
  | respReadInputRegisters => exact (sameDecoderSide_respond (outcomeOf_next.mp h)).cfg
  | respExcIllegalFunction | respExcIllegalDataAddress =>
    cases h
    exact (sameDecoderSide_sendFrame _ _).cfg
  | crcReset v | crcFeed v =>
    cases h
    cases v <;> rfl
  | crcLowByte | crcHighByte | storeRegisterCount =>
    cases h
    exact State.setRet_cfg _ _
  | storeReset | storePresentCode | storePresentValue | storeCommit =>
    cases h
    exact State.setStore_cfg _ _
  | storeReadRegister r =>
    change execStoreReadRegister r s = .next t at h
    unfold execStoreReadRegister at h
    split at h
    · cases h
      exact State.setRet_cfg _ _
    · cases h
  | decoderFeed =>
    cases h
    exact (sameSlaveSide_feed _ _).cfg
  | slaveOnByte => exact (sameDecoderSide_onByte (outcomeOf_next.mp h)).cfg
  | timerTick =>
    cases h
    unfold tick
    split <;> rfl
  | timerRx => exact (sameDecoderSide_onByte (outcomeOf_next.mp h)).cfg
  | _ => cases hrow

/-- No instruction changes the configuration (R13). -/
theorem exec_cfg {i : Instr} {s t : State} (h : exec i s = .next t) : t.cfg = s.cfg := by
  cases hrow : i.rowState with
  | tele x => exact (sameSlaveSide_exec hrow h).cfg
  | bus x => exact (sameDecoderSide_exec (.inr ⟨x, hrow⟩) h).cfg
  | frame => exact (sameDecoderSide_exec (.inl hrow) h).cfg
  | operation => exact exec_operation_cfg hrow h

/-! ### The step -/

/-- A step that answers a next state idles, runs the instruction its event selects, or runs the bytes of
a frame that is no request (R12, R319, R122). -/
theorem step_cases {s t : State} (h : step s = .next t) : s.cfg.wf = true ∧
    ((s.events = [] ∧ t = s) ∨
    ∃ e rest, s.events = e :: rest ∧
      ((∃ i, decodeAt (s.setEvents rest) e = .ok i ∧ exec i (s.setEvents rest) = .next t) ∨
      ∃ bytes, decodeAt (s.setEvents rest) e = .error (.notARequest bytes) ∧
        onFrame bytes (s.setEvents rest) = .ok t)) := by
  unfold step at h
  split at h
  case isFalse => cases h
  case isTrue hwf =>
    refine ⟨hwf, ?_⟩
    unfold fetchEvent at h
    cases hev : s.events with
    | nil =>
      simp only [hev] at h
      cases h
      exact .inl ⟨rfl, rfl⟩
    | cons e rest =>
      simp only [hev] at h
      refine .inr ⟨e, rest, rfl, ?_⟩
      cases hdec : decodeAt (s.setEvents rest) e with
      | ok i =>
        simp only [hdec] at h
        exact .inl ⟨i, rfl, h⟩
      | error why =>
        simp only [hdec] at h
        obtain ⟨bytes⟩ := why
        exact .inr ⟨bytes, rfl, outcomeOf_next.mp h⟩

/-- No step changes the configuration (R13). -/
theorem step_cfg {s t : State} (h : step s = .next t) : t.cfg = s.cfg := by
  obtain ⟨-, ⟨-, rfl⟩ | ⟨e, rest, -, ⟨i, -, hexec⟩ | ⟨bytes, -, hframe⟩⟩⟩ := step_cases h
  · rfl
  · exact (exec_cfg hexec).trans (State.setEvents_cfg _ _)
  · exact (sameDecoderSide_onFrame hframe).cfg.trans (State.setEvents_cfg _ _)

/-- Settles O14: the configuration is kept by every row, and registers 0 and 1 read nothing else. -/
theorem configurationNeverChanges : Obligations.ConfigurationNeverChanges := by
  intro s t h
  have hcfg : t.cfg = s.cfg := step_cfg h
  rw [hcfg]
  exact ⟨rfl, readRegister_zero _ _, readRegister_one _ _⟩

end Sys2Proof.Machine

namespace Sys2Proof.Machine

/-! SUPPORT. The Register Store: its operations as rows, what a detected code stages, and what a commit
makes of a live word, by the three cases of its pair (R161, R164, R167, R168). -/

/-! ### The Store's rows -/

@[simp] theorem exec_storeReset (s : State) :
    exec .storeReset s = .next (s.setStore s.store.reset) := rfl

@[simp] theorem exec_storePresentValue (v : I64) (s : State) :
    exec (.storePresentValue v) s = .next (s.setStore (s.store.presentValue v)) := rfl

@[simp] theorem exec_storeCommit (s : State) :
    exec .storeCommit s = .next (s.setStore (s.store.commit s.cfg)) := rfl

/-! ### Reset -/

/-- The reset Store, field by field (R161). -/
theorem Store.reset_eq (st : Store) :
    st.reset = { st with sset := List.replicate st.sset.length false, det := none } := by
  rw [← List.map_const']
  rfl

/-- Settles O20: a reset writes the flags and the slot only. -/
theorem storeResetClearsStaging : Obligations.StoreResetClearsStaging := by
  intro s
  rw [exec_storeReset, Store.reset_eq]
  rfl

/-! ### Staging a value -/

section Staging

variable {st : Store} {k : Nat} (v : I64)

theorem Store.presentValue_staged_high (h : st.det = some k) (hk : 2 * k < st.staged.length) :
    (st.presentValue v).staged[2 * k]? = some ((v >>> 16).setWidth 16) := by
  rw [presentValue_some v h, List.getElem?_set_ne (by omega), List.getElem?_set_self hk,
    BitVec.setWidth_ushiftRight_eq_extractLsb]

theorem Store.presentValue_staged_low (h : st.det = some k) (hk : 2 * k + 1 < st.staged.length) :
    (st.presentValue v).staged[2 * k + 1]? = some (v.setWidth 16) := by
  rw [presentValue_some v h, List.getElem?_set_self (by simpa using hk),
    BitVec.setWidth_eq_extractLsb' (by decide)]

/-- Outside the detected pair no staged word changes. -/
theorem Store.presentValue_staged_ne {i : Nat} (h : st.det = some k) (hhigh : i ≠ 2 * k)
    (hlow : i ≠ 2 * k + 1) : (st.presentValue v).staged[i]? = st.staged[i]? := by
  rw [presentValue_some v h, List.getElem?_set_ne hlow.symm, List.getElem?_set_ne hhigh.symm]

theorem Store.presentValue_sset_self (h : st.det = some k) (hk : k < st.sset.length) :
    (st.presentValue v).sset[k]? = some true := by
  rw [presentValue_some v h, List.getElem?_set_self hk]

theorem Store.presentValue_sset_ne {m : Nat} (h : st.det = some k) (hm : m ≠ k) :
    (st.presentValue v).sset[m]? = st.sset[m]? := by
  rw [presentValue_some v h, List.getElem?_set_ne hm.symm]

end Staging

/-- Settles O22: by whether a code is detected; a detected code names a pair of the staged file. -/
theorem presentValueStages : Obligations.PresentValueStages := by
  intro s v hinv
  constructor
  · intro hdet
    rw [exec_storePresentValue, Store.presentValue_none v hdet, State.setStore_self]
  · intro k hdet
    have hk : k < s.cfg.nCodes := hinv.det_lt k hdet
    have hstaged := hinv.staged_length
    have hsset := hinv.sset_length
    exact ⟨s.store.presentValue v, exec_storePresentValue v s,
      Store.presentValue_staged_high v hdet (by omega),
      Store.presentValue_staged_low v hdet (by omega),
      fun _ => Store.presentValue_staged_ne v hdet,
      Store.presentValue_sset_self v hdet (by omega),
      fun _ => Store.presentValue_sset_ne v hdet,
      Store.presentValue_det v _, Store.presentValue_live v _⟩

/-! ### The commit of a pair -/

theorem Store.isStaged_of_getElem? {st : Store} {k : Nat} {b : Bool} (h : st.sset[k]? = some b) :
    st.isStaged k = b := by
  simp [Store.isStaged, h]

/-- The flags after a commit (R167). -/
theorem Store.commit_sset_eq (c : Cfg) (st : Store) :
    (st.commit c).sset = List.replicate st.sset.length false := by
  rw [commit_sset, List.map_const']

section Commit

variable {c : Cfg} {st : Store} {i k : Nat}

/-- A word of a staged pair is promoted (R167). -/
theorem Store.commit_live_of_staged (hinv : st.Inv c) (hi : i < 2 * c.nCodes) (hk : i / 2 = k)
    (hflag : st.sset[k]? = some true) : (st.commit c).live[i]? = st.staged[i]? := by
  have hlive : i < st.live.length := hinv.live_length ▸ hi
  have hstaged : i < st.staged.length := hinv.staged_length ▸ hi
  have hword (w : Word16) : st.committedWord c i w = st.staged[i] := by
    simp [committedWord, hk, isStaged_of_getElem? hflag, hstaged]
  rw [commit_live_getElem?, List.getElem?_eq_getElem hlive, List.getElem?_eq_getElem hstaged,
    Option.map_some, hword]

/-- A word of an absent transient pair is zeroed (R167, R168). -/
theorem Store.commit_live_of_transient (hinv : st.Inv c) (hi : i < 2 * c.nCodes) (hk : i / 2 = k)
    (hflag : st.sset[k]? = some false) (hp : c.pPersist ≤ k) :
    (st.commit c).live[i]? = some 0 := by
  have hlive : i < st.live.length := hinv.live_length ▸ hi
  have hword (w : Word16) : st.committedWord c i w = 0 := by
    simp [committedWord, hk, isStaged_of_getElem? hflag, persistent, hp]
  rw [commit_live_getElem?, List.getElem?_eq_getElem hlive, Option.map_some, hword]

/-- A word of an absent persistent pair is kept (R168). -/
theorem Store.commit_live_of_persistent (hk : i / 2 = k) (hflag : st.sset[k]? = some false)
    (hp : k < c.pPersist) : (st.commit c).live[i]? = st.live[i]? := by
  have hword : st.committedWord c i = id := by
    funext w
    simp [committedWord, hk, isStaged_of_getElem? hflag, persistent, hp]
  rw [commit_live_getElem?, hword, Option.map_id_apply]

end Commit

/-- Settles O23: both words of pair `k` have an index whose half is `k`, and meet the pair's case. -/
theorem commitUpdatesEveryPair : Obligations.CommitUpdatesEveryPair := by
  intro s hinv
  refine ⟨s.store.commit s.cfg, exec_storeCommit s, Store.commit_live_length _ _, ?_,
    Store.commit_sset_eq _ _, Store.commit_staged _ _, Store.commit_det _ _⟩
  intro k hk
  have hhigh : 2 * k / 2 = k := by omega
  have hlow : (2 * k + 1) / 2 = k := by omega
  refine ⟨fun hflag => ⟨?_, ?_⟩, fun hflag hp => ⟨?_, ?_⟩, fun hflag hp => ⟨?_, ?_⟩⟩
  · exact Store.commit_live_of_staged hinv (by omega) hhigh hflag
  · exact Store.commit_live_of_staged hinv (by omega) hlow hflag
  · exact Store.commit_live_of_transient hinv (by omega) hhigh hflag hp
  · exact Store.commit_live_of_transient hinv (by omega) hlow hflag hp
  · exact Store.commit_live_of_persistent hhigh hflag hp
  · exact Store.commit_live_of_persistent hlow hflag hp

end Sys2Proof.Machine

namespace Sys2Proof.Machine

/-! SUPPORT. Counting a child on the nesting stack (R218): a completed level passes the count on to the
level around it, an open one takes it. -/

/-! ### The nesting stack: one child more -/

@[simp] theorem childDone_nil : childDone [] = [] := rfl

theorem childDone_cons_of_completes {l : Level} (h : l.rd + 1 = l.exp) (ls : List Level) :
    childDone (l :: ls) = childDone ls := if_pos h

theorem childDone_cons_of_not_completes {l : Level} (h : l.rd + 1 ≠ l.exp) (ls : List Level) :
    childDone (l :: ls) = { exp := l.exp, rd := l.rd + 1 } :: ls := if_neg h

/-- The innermost levels a child completes close, and the child is counted beyond them (R218). -/
theorem childDone_append_of_completes {full : List Level} (h : ∀ l ∈ full, l.rd + 1 = l.exp)
    (ls : List Level) : childDone (full ++ ls) = childDone ls := by
  induction full with
  | nil => rfl
  | cons l full ih =>
    obtain ⟨hl, hfull⟩ := List.forall_mem_cons.mp h
    calc childDone (l :: full ++ ls)
        = childDone (full ++ ls) := childDone_cons_of_completes hl _
      _ = childDone ls := ih hfull

/-- Settles O32: the completed levels close, and what is around them, nothing or a level with children
left, decides the rest. -/
theorem childDoneClosesCompletedLevels : Obligations.ChildDoneClosesCompletedLevels := by
  intro full hfull
  refine ⟨?_, fun l rest hl => ?_⟩
  · simpa using childDone_append_of_completes hfull []
  · rw [childDone_append_of_completes hfull, childDone_cons_of_not_completes hl]

end Sys2Proof.Machine

namespace Sys2Proof.Machine

/-! SUPPORT. The decoder against the encoder (R102, R110, R111, R123): a TL byte is its two nibbles, the row
an event selects is the one its encoding names, and it is well-formed and of the state it was met in. -/

/-! ### The nibbles of a TL byte (R102) -/

@[simp] theorem tlTag_tlByte (tag n : Nibble) : tlTag (tlByte tag n) = tag := by
  ext i hi
  simp only [tlTag, tlByte, BitVec.getElem_extractLsb', BitVec.getLsbD_append]
  rw [if_neg (by omega), Nat.add_sub_cancel_left, BitVec.getLsbD_eq_getElem hi]

@[simp] theorem tlCount_tlByte (tag n : Nibble) : tlCount (tlByte tag n) = n := by
  ext i hi
  simp only [tlCount, tlByte, BitVec.getElem_extractLsb', BitVec.getLsbD_append]
  rw [if_pos (by omega), Nat.zero_add, BitVec.getLsbD_eq_getElem hi]

@[simp] theorem tlByte_tlTag_tlCount (b : Byte) : tlByte (tlTag b) (tlCount b) = b :=
  BitVec.extractLsb'_append_extractLsb'_eq_extractLsb' (by decide) |>.trans BitVec.extractLsb'_eq_self

theorem tlByte_inj {tag tag' n n' : Nibble} : tlByte tag n = tlByte tag' n' ↔ tag = tag' ∧ n = n' := by
  refine ⟨fun h => ⟨?_, ?_⟩, fun ⟨ht, hn⟩ => ht ▸ hn ▸ rfl⟩
  · simpa using congrArg tlTag h
  · simpa using congrArg tlCount h

theorem toNat_tlByte (tag n : Nibble) : (tlByte tag n).toNat = 16 * tag.toNat + n.toNat := by
  rw [tlByte, BitVec.toNat_append, ← Nat.shiftLeft_add_eq_or_of_lt n.isLt, Nat.shiftLeft_eq]
  omega

/-! ### The class of a byte at a structural position, by its nibbles (R106, R110) -/

theorem decodeInMsg_escByte (c : Cfg) : decodeInMsg c c.escByte = .inMsgEsc := if_pos rfl

theorem decodeInMsg_tlByte {c : Cfg} {tag n : Nibble} (hesc : tlByte tag n ≠ c.escByte) :
    decodeInMsg c (tlByte tag n) =
      if tag = 0x0 then if n = 0 then .inMsgZero else .inMsgOctet n
      else if tag = 0x7 then if n = 0 then .inMsgListClose else .inMsgListPush n
      else if tag = 0x4 then if n = 0 then .inMsgBoolEmpty else .inMsgBool n
      else if tag = 0x5 then if n = 0 then .inMsgIntEmpty else .inMsgInt n
      else if tag = 0x6 then if n = 0 then .inMsgUintEmpty else .inMsgUint n
      else .inMsgIllegal (tlByte tag n) := by
  have h00 : (0x00 : Byte) = tlByte 0x0 0 := rfl
  have h70 : (0x70 : Byte) = tlByte 0x7 0 := rfl
  have h40 : (0x40 : Byte) = tlByte 0x4 0 := rfl
  have h50 : (0x50 : Byte) = tlByte 0x5 0 := rfl
  have h60 : (0x60 : Byte) = tlByte 0x6 0 := rfl
  rw [decodeInMsg, if_neg hesc, h00, h70, h40, h50, h60]
  simp only [tlByte_inj, tlTag_tlByte, tlCount_tlByte]
  by_cases hn : n = 0
  · simp only [hn, and_true, if_true]
    split_ifs <;> simp_all
  · simp only [hn, and_false, if_false]
    split_ifs <;> simp_all

theorem illegalTag_iff {t : Nibble} :
    illegalTag t = true ↔ t ≠ 0x0 ∧ t ≠ 0x4 ∧ t ≠ 0x5 ∧ t ≠ 0x6 ∧ t ≠ 0x7 := by
  simp [illegalTag, and_assoc]

/-! ### The row a byte selects is a row of its state, admits its operands, and encodes to the byte -/

theorem decodeInMsg_selects (c : Cfg) (b : Byte) : (decodeInMsg c b).wellFormed c = true ∧
    (decodeInMsg c b).rowState = .tele .inMsg ∧ encode c (decodeInMsg c b) = .telemetry b := by
  by_cases hesc : b = c.escByte
  · rw [hesc, decodeInMsg_escByte]
    exact ⟨rfl, rfl, rfl⟩
  · rw [← tlByte_tlTag_tlCount b] at hesc ⊢
    generalize tlTag b = tag, tlCount b = n at hesc ⊢
    rw [decodeInMsg_tlByte hesc]
    have hzero : tlByte 0x0 0 = 0x00 := rfl
    split_ifs <;> simp_all [Instr.wellFormed, Instr.rowState, encode, illegalTag_iff]

theorem decodeTelemetry_selects (c : Cfg) (t : TeleCtx) (b : Byte) :
    (decodeTelemetry c t b).wellFormed c = true ∧ (decodeTelemetry c t b).rowState = .tele t ∧
      encode c (decodeTelemetry c t b) = .telemetry b := by
  cases t with
  | inMsg => exact decodeInMsg_selects c b
  | seekEsc | seekTypeRest =>
    simp only [decodeTelemetry]
    split <;> simp_all [Instr.wellFormed, Instr.rowState, encode]
  | seekTypeFirst =>
    simp only [decodeTelemetry, decodeSeekTypeFirst]
    split_ifs <;> simp_all [Instr.wellFormed, Instr.rowState, encode]
  | endFill | trailerFirst | trailerSecond | accum => exact ⟨rfl, rfl, rfl⟩

theorem decodeFieldbus_selects (c : Cfg) (x : SlvState) (b : Byte) (quiet : Bool) :
    (decodeFieldbus c x b quiet).wellFormed c = true ∧
      (decodeFieldbus c x b quiet).rowState = .bus x ∧
      encode c (decodeFieldbus c x b quiet) = .fieldbus b quiet := by
  cases x with
  | idle | addrMatched =>
    simp only [decodeFieldbus]
    split <;> cases quiet <;> simp_all [Instr.wellFormed, Instr.rowState, encode]
  | collecting => exact ⟨rfl, rfl, rfl⟩

/-! ### The round trip -/

/-- The escape byte is none of the bytes that R10 keeps apart from it. -/
theorem Cfg.wf_escByte {c : Cfg} (h : c.wf = true) :
    c.escByte ≠ 0x00 ∧ c.escByte ≠ beginByte ∧ c.escByte ≠ endByte := by
  simp only [Cfg.wf, decide_eq_true_eq] at h
  obtain ⟨-, -, -, -, -, -, -, -, -, -, hzero, hbegin, hend, -, -⟩ := h
  exact ⟨hzero, hbegin, hend⟩

theorem decodeTelemetry_of_encode {c : Cfg} {i : Instr} {t : TeleCtx} {b : Byte} (hwf : c.wf = true)
    (hi : i.wellFormed c = true) (hrow : i.rowState = .tele t) (henc : encode c i = .telemetry b) :
    decodeTelemetry c t b = i := by
  obtain ⟨hzero, hbegin, hend⟩ := Cfg.wf_escByte hwf
  cases i with
  | seekEscEsc | seekTypeBegin | seekTypeBeginN | endFillFill | trailerCrcLo | trailerCrcHi
  | accumData =>
    cases hrow; cases henc
    simp [decodeTelemetry, decodeSeekTypeFirst]
  | seekTypeEnd =>
    cases hrow; cases henc
    rfl
  | seekTypeEscEsc =>
    cases hrow; cases henc
    simp [decodeTelemetry, decodeSeekTypeFirst, hbegin, hend]
  | seekEscOther | seekTypeOther | seekTypeOtherN =>
    cases hrow; cases henc
    simp_all [decodeTelemetry, decodeSeekTypeFirst, Instr.wellFormed]
  | inMsgEsc =>
    cases hrow; cases henc
    exact decodeInMsg_escByte c
  | inMsgZero =>
    cases hrow; cases henc
    exact decodeInMsg_tlByte (tag := 0x0) (n := 0) hzero.symm
  | inMsgListClose | inMsgBoolEmpty | inMsgIntEmpty | inMsgUintEmpty =>
    cases hrow; cases henc
    exact decodeInMsg_tlByte (bne_iff_ne.mp hi)
  | inMsgListPush | inMsgOctet | inMsgBool | inMsgInt | inMsgUint =>
    cases hrow; cases henc
    simp only [Instr.wellFormed, Bool.and_eq_true, bne_iff_ne] at hi
    obtain ⟨hn, hesc⟩ := hi
    exact (decodeInMsg_tlByte hesc).trans (if_neg hn)
  | inMsgIllegal b =>
    cases hrow; cases henc
    simp only [Instr.wellFormed, Bool.and_eq_true, bne_iff_ne, illegalTag_iff] at hi
    obtain ⟨htag, hesc⟩ := hi
    rw [← tlByte_tlTag_tlCount b] at hesc ⊢
    obtain ⟨h0, h4, h5, h6, h7⟩ := htag
    refine (decodeInMsg_tlByte hesc).trans ?_
    rw [if_neg h0, if_neg h7, if_neg h4, if_neg h5, if_neg h6]
  | _ => cases hrow

theorem decodeFieldbus_of_encode {c : Cfg} {i : Instr} {x : SlvState} {b : Byte} {quiet : Bool}
    (hi : i.wellFormed c = true) (hrow : i.rowState = .bus x)
    (henc : encode c i = .fieldbus b quiet) : decodeFieldbus c x b quiet = i := by
  cases i with
  | idleOther =>
    cases hrow; cases henc
    cases quiet <;> simp_all [decodeFieldbus, Instr.wellFormed]
  | idleAddr | addrMatchedFunc | addrMatchedOther | collectingData =>
    cases hrow; cases henc
    simp_all [decodeFieldbus, Instr.wellFormed]
  | _ => cases hrow

/-- A frame that selects a row is a request of R111 for this device. -/
theorem decodeFrame_ok {c : Cfg} {bytes : List Byte} {i : Instr} (h : decodeFrame c bytes = .ok i) :
    ∃ p2 p3 p4 p5 lo hi, bytes = [c.devAddr, funcRd, p2, p3, p4, p5, lo, hi] ∧
      i = .reqReadInputRegisters p2 p3 p4 p5 lo hi := by
  unfold decodeFrame at h
  split at h
  case h_1 addr func p2 p3 p4 p5 lo hi =>
    split at h
    case isTrue hreq =>
      obtain ⟨rfl, rfl⟩ := hreq
      cases h
      exact ⟨p2, p3, p4, p5, lo, hi, rfl, rfl⟩
    case isFalse => cases h
  case h_2 => cases h

/-- A frame that selects no row is rejected with its own bytes. -/
theorem decodeFrame_error {c : Cfg} {bytes : List Byte} {why : DecodeError}
    (h : decodeFrame c bytes = .error why) : why = .notARequest bytes := by
  unfold decodeFrame at h
  split at h
  · split at h
    · cases h
    · cases h
      rfl
  · cases h
    rfl

/-- The context agrees with a telemetry or fieldbus row exactly in the row's state. -/
theorem Ctx.agrees_tele {x : Ctx} {t : TeleCtx} : x.agrees (.tele t) = true ↔ x.tele = t := beq_iff_eq

theorem Ctx.agrees_bus {x : Ctx} {t : SlvState} : x.agrees (.bus t) = true ↔ x.bus = t := beq_iff_eq

/-- A telemetry row is encoded as a telemetry byte, a fieldbus row as a fieldbus byte. -/
theorem encode_tele {c : Cfg} {i : Instr} {t : TeleCtx} (h : i.rowState = .tele t) :
    ∃ b, encode c i = .telemetry b := by
  cases i with
  | seekEscEsc | seekEscOther | seekTypeBegin | seekTypeEnd | seekTypeEscEsc | seekTypeOther
  | seekTypeBeginN | seekTypeOtherN | endFillFill | trailerCrcLo | trailerCrcHi | inMsgEsc | inMsgZero
  | inMsgListClose | inMsgListPush | inMsgBoolEmpty | inMsgIntEmpty | inMsgUintEmpty | inMsgOctet
  | inMsgBool | inMsgInt | inMsgUint | inMsgIllegal | accumData => exact ⟨_, rfl⟩
  | _ => cases h

theorem encode_bus {c : Cfg} {i : Instr} {x : SlvState} (h : i.rowState = .bus x) :
    ∃ b quiet, encode c i = .fieldbus b quiet := by
  cases i with
  | idleAddr | idleOther | addrMatchedFunc | addrMatchedOther | collectingData => exact ⟨_, _, rfl⟩
  | _ => cases h

theorem decode_encode_frame {c : Cfg} {x : Ctx} {i : Instr} (h : i.rowState = .frame) :
    decode c x (encode c i) = .ok i := by
  cases i with
  | reqReadInputRegisters => simp [encode, decode, decodeFrame]
  | _ => cases h

theorem decode_encode_operation {c : Cfg} {x : Ctx} {i : Instr} (h : i.rowState = .operation) :
    decode c x (encode c i) = .ok i := by
  cases i with
  | respReadInputRegisters | respExcIllegalFunction | respExcIllegalDataAddress | crcReset | crcFeed
  | crcLowByte | crcHighByte | storeReset | storePresentCode | storePresentValue | storeCommit
  | storeRegisterCount | storeReadRegister | decoderFeed | slaveOnByte | timerTick | timerRx => rfl
  | _ => cases h

/-- Settles O1, by the surface the row's encoding is delivered on. -/
theorem decodeOfEncode : Obligations.DecodeOfEncode := by
  intro c x i hwf hi hx
  cases hrow : i.rowState with
  | tele t =>
    rw [hrow, Ctx.agrees_tele] at hx
    obtain ⟨b, hb⟩ := encode_tele (c := c) hrow
    rw [hb, ← decodeTelemetry_of_encode hwf hi hrow hb, ← hx]
    rfl
  | bus t =>
    rw [hrow, Ctx.agrees_bus] at hx
    obtain ⟨b, quiet, hb⟩ := encode_bus (c := c) hrow
    rw [hb, ← decodeFieldbus_of_encode hi hrow hb, ← hx]
    rfl
  | frame => exact decode_encode_frame hrow
  | operation => exact decode_encode_operation hrow

/-- Settles O2: the row the decoder selects is one, and by the round trip (O1) there is no other. -/
theorem everyByteSelectsOneRow : Obligations.EveryByteSelectsOneRow := by
  intro c x b hwf
  refine ⟨⟨decodeTelemetry c x.tele b, ?_, ?_⟩,
    fun quiet => ⟨decodeFieldbus c x.bus b quiet, ?_, ?_⟩⟩
  · obtain ⟨hi, hrow, henc⟩ := decodeTelemetry_selects c x.tele b
    exact ⟨hi, by rw [hrow, Ctx.agrees_tele], henc⟩
  · rintro i ⟨hi, hx, henc⟩
    have hround := decodeOfEncode c x i hwf hi hx
    rw [henc] at hround
    exact (Except.ok.inj hround).symm
  · obtain ⟨hi, hrow, henc⟩ := decodeFieldbus_selects c x.bus b quiet
    exact ⟨hi, by rw [hrow, Ctx.agrees_bus], henc⟩
  · rintro i ⟨hi, hx, henc⟩
    have hround := decodeOfEncode c x i hwf hi hx
    rw [henc] at hround
    exact (Except.ok.inj hround).symm

/-- Settles O3: each conjunct is one closed evaluation of the decoder. -/
theorem specWordsDecode : Obligations.SpecWordsDecode := by
  unfold Obligations.SpecWordsDecode
  decide

end Sys2Proof.Machine

namespace Sys2Proof.Machine

/-! SUPPORT. What a step is, by the surface of its event: a byte row runs the byte event of its engine
(R200, R260), a frame its bytes (R121), a call its operation. Every later proof about `step` goes through
`step_cons`. -/

/-! ### A byte row, selected or not -/

/-- A telemetry or fieldbus row means what it does where it is selected, and is refused elsewhere. -/
theorem exec_byteRow {i : Instr} (s : State) (hframe : i.rowState ≠ .frame)
    (hop : i.rowState ≠ .operation) : ∃ r, exec i s = onRow i s r := by
  cases i with
  | reqReadInputRegisters => exact absurd rfl hframe
  | respReadInputRegisters | respExcIllegalFunction | respExcIllegalDataAddress | crcReset | crcFeed
  | crcLowByte | crcHighByte | storeReset | storePresentCode | storePresentValue | storeCommit
  | storeRegisterCount | storeReadRegister | decoderFeed | slaveOnByte | timerTick | timerRx =>
    exact absurd rfl hop
  | _ => exact ⟨_, rfl⟩

/-- Settles O9: such a row is not selected. -/
theorem unselectedByteRowRefused : Obligations.UnselectedByteRowRefused := by
  intro s i hframe hop hsel
  obtain ⟨r, hr⟩ := exec_byteRow s hframe hop
  rw [hr, onRow_not_selected (Bool.and_eq_false_iff.mpr hsel)]

theorem selected_tele {i : Instr} {s : State} {t : TeleCtx} (hrow : i.rowState = .tele t)
    (hctx : decCtx s.dec = t) (hi : i.wellFormed s.cfg = true) : selected i s = true := by
  rw [selected, hrow, hi, Bool.and_true, Ctx.agrees_tele]
  exact hctx

theorem selected_bus {i : Instr} {s : State} {x : SlvState} (hrow : i.rowState = .bus x)
    (hctx : s.slv.state = x) (hi : i.wellFormed s.cfg = true) : selected i s = true := by
  rw [selected, hrow, hi, Bool.and_true, Ctx.agrees_bus]
  exact hctx

/-- In the state of its telemetry row a byte runs the row's action. -/
theorem onRow_tele {i : Instr} {s u : State} {t : TeleCtx} (hrow : i.rowState = .tele t)
    (hctx : decCtx s.dec = t) (hi : i.wellFormed s.cfg = true) : onRow i s (.ok u) = .next u :=
  onRow_selected (selected_tele hrow hctx hi)

theorem onRow_bus {i : Instr} {s : State} {x : SlvState} {r : Except Fault State}
    (hrow : i.rowState = .bus x) (hctx : s.slv.state = x) (hi : i.wellFormed s.cfg = true) :
    onRow i s r = outcomeOf r :=
  onRow_selected (selected_bus hrow hctx hi)

/-! ### The telemetry byte -/

@[simp] theorem feedCrcB_cfg (b : Byte) (s : State) : (feedCrcB b s).cfg = s.cfg := rfl
@[simp] theorem feedCrcB_store (b : Byte) (s : State) : (feedCrcB b s).store = s.store := rfl
@[simp] theorem feedCrcB_dec (b : Byte) (s : State) : (feedCrcB b s).dec = s.dec := rfl

section FeedByState

variable {s : State} (b : Byte)

theorem feed_seekEsc (h : s.dec.state = .seekEsc) : feed b s = seekEsc b (feedCrcB b s) := by
  simp [feed, h]
theorem feed_seekType (h : s.dec.state = .seekType) : feed b s = seekType b (feedCrcB b s) := by
  simp [feed, h]
theorem feed_inMsg (h : s.dec.state = .inMsg) : feed b s = structural b (feedCrcB b s) := by
  simp [feed, h]
theorem feed_accum (h : s.dec.state = .accum) : feed b s = accumulate b (feedCrcB b s) := by
  simp [feed, h]
theorem feed_endFill (h : s.dec.state = .endFill) : feed b s = endFill (feedCrcB b s) := by
  simp [feed, h]
theorem feed_trailer (h : s.dec.state = .trailer) : feed b s = trailerByte b s := by
  simp [feed, h]

end FeedByState

/-- What a byte does at a structural position, by its nibbles (R212). -/
theorem structural_tlByte {s : State} {tag n : Nibble} (hesc : tlByte tag n ≠ s.cfg.escByte) :
    structural (tlByte tag n) s =
      if tag = 0x0 then if n = 0 then closeCurrent s else scalarElement .octet n s
      else if tag = 0x7 then if n = 0 then closeCurrent s else pushList n s
      else if tag = 0x4 then scalarElement .bool n s
      else if tag = 0x5 then scalarElement .int n s
      else if tag = 0x6 then scalarElement .uint n s
      else decoderReset .illegalTag s := by
  have h00 : (0x00 : Byte) = tlByte 0x0 0 := rfl
  rw [structural, if_neg hesc, h00]
  simp only [tlByte_inj, tlTag_tlByte, tlCount_tlByte, elemTag]
  by_cases hn : n = 0
  · simp only [hn, and_true, if_true]
    split_ifs <;> simp_all
  · simp only [hn, and_false, if_false]
    split_ifs <;> simp_all

theorem exec_decodeInMsg (s : State) (b : Byte) : exec (decodeInMsg s.cfg b) s =
    onRow (decodeInMsg s.cfg b) s (.ok (structural b (feedCrcB b s))) := by
  by_cases hesc : b = s.cfg.escByte
  · rw [hesc, decodeInMsg_escByte, structural, if_pos (by rfl)]
    rfl
  · rw [← tlByte_tlTag_tlCount b] at hesc ⊢
    generalize tlTag b = tag, tlCount b = n at hesc ⊢
    rw [decodeInMsg_tlByte hesc, structural_tlByte (s := feedCrcB _ s) hesc]
    split_ifs <;> subst_vars <;> rfl

/-- The row a telemetry byte selects runs `feed` (R200, R110). -/
theorem exec_decodeTelemetry (s : State) (b : Byte) :
    exec (decodeTelemetry s.cfg s.ctx.tele b) s = .next (feed b s) := by
  obtain ⟨hi, hrow, -⟩ := decodeTelemetry_selects s.cfg s.ctx.tele b
  suffices h : exec (decodeTelemetry s.cfg s.ctx.tele b) s =
      onRow (decodeTelemetry s.cfg s.ctx.tele b) s (.ok (feed b s)) from
    h.trans (onRow_tele hrow rfl hi)
  have hctx : s.ctx.tele = decCtx s.dec := rfl
  rw [hctx]
  cases hstate : s.dec.state with
  | seekEsc =>
    rw [decCtx_seekEsc hstate, feed_seekEsc b hstate, decodeTelemetry, seekEsc, feedCrcB_cfg]
    split_ifs <;> subst_vars <;> rfl
  | seekType =>
    by_cases hj : s.dec.j = 0
    · rw [decCtx_seekType_first hstate hj, feed_seekType b hstate, decodeTelemetry,
        decodeSeekTypeFirst, seekType, feedCrcB_cfg, feedCrcB_dec, if_pos hj]
      split_ifs <;> subst_vars <;> rfl
    · rw [decCtx_seekType_rest hstate hj, feed_seekType b hstate, decodeTelemetry, seekType,
        feedCrcB_dec, if_neg hj]
      split_ifs <;> subst_vars <;> rfl
  | inMsg =>
    rw [decCtx_inMsg hstate, feed_inMsg b hstate]
    exact exec_decodeInMsg s b
  | accum =>
    rw [decCtx_accum hstate, feed_accum b hstate]
    rfl
  | endFill =>
    rw [decCtx_endFill hstate, feed_endFill b hstate]
    rfl
  | trailer =>
    rw [feed_trailer b hstate, trailerByte]
    by_cases ht : s.dec.t = 0
    · rw [decCtx_trailer_first hstate ht, if_pos ht]
      rfl
    · rw [decCtx_trailer_second hstate ht, if_neg ht]
      rfl

/-- Settles O7: `feed` is the row the byte selects. -/
theorem feedRunsTheSelectedRow : Obligations.FeedRunsTheSelectedRow :=
  fun s b _ => ⟨feed b s, rfl, exec_decodeTelemetry s b⟩

/-! ### The fieldbus byte and the frame -/

/-- The row a fieldbus byte selects runs `onByte` (R260, R123). -/
theorem exec_decodeFieldbus (s : State) (b : Byte) (quiet : Bool) :
    exec (decodeFieldbus s.cfg s.slv.state b quiet) s = outcomeOf (onByte b quiet s) := by
  obtain ⟨hi, hrow, -⟩ := decodeFieldbus_selects s.cfg s.slv.state b quiet
  suffices h : exec (decodeFieldbus s.cfg s.slv.state b quiet) s =
      onRow (decodeFieldbus s.cfg s.slv.state b quiet) s (onByte b quiet s) from
    h.trans (onRow_bus hrow rfl hi)
  cases hstate : s.slv.state with
  | idle =>
    simp only [onByte, hstate, decodeFieldbus, idleByte]
    split_ifs <;> rfl
  | addrMatched =>
    simp only [onByte, hstate, decodeFieldbus, funcByte]
    split_ifs <;> subst_vars <;> rfl
  | collecting =>
    simp only [onByte, hstate]
    rfl

/-! ### The step on an event -/

/-- What an event does in the state it meets: a byte is the byte event of its engine, a frame the byte
events of its bytes, a call its operation. -/
def runEvent (e : Event) (s : State) : Host.Outcome State Fault Refusal :=
  match e with
  | .telemetry b => .next (feed b s)
  | .fieldbus b quiet => outcomeOf (onByte b quiet s)
  | .frame bytes => outcomeOf (onFrame bytes s)
  | .call op => exec op.instr s

theorem step_of_decode_ok {s : State} {e : Event} {rest : List Event} {i : Instr}
    (hwf : s.cfg.wf = true) (hev : s.events = e :: rest)
    (hdec : decodeAt (s.setEvents rest) e = .ok i) : step s = exec i (s.setEvents rest) := by
  simp [step, fetchEvent, hwf, hev, hdec]

theorem step_of_decode_error {s : State} {e : Event} {rest : List Event} {why : DecodeError}
    (hwf : s.cfg.wf = true) (hev : s.events = e :: rest)
    (hdec : decodeAt (s.setEvents rest) e = .error why) :
    step s = runByteByByte why (s.setEvents rest) := by
  simp [step, fetchEvent, hwf, hev, hdec]

/-- The step takes the first event and runs it on the state without it (R12, R110, R121). -/
theorem step_cons {s : State} {e : Event} {rest : List Event} (hwf : s.cfg.wf = true)
    (hev : s.events = e :: rest) : step s = runEvent e (s.setEvents rest) := by
  cases e with
  | telemetry b => exact (step_of_decode_ok hwf hev rfl).trans (exec_decodeTelemetry _ b)
  | fieldbus b quiet => exact (step_of_decode_ok hwf hev rfl).trans (exec_decodeFieldbus _ b quiet)
  | call op => exact step_of_decode_ok hwf hev rfl
  | frame bytes =>
    cases hdec : decodeAt (s.setEvents rest) (.frame bytes) with
    | ok i =>
      obtain ⟨p2, p3, p4, p5, lo, hi, rfl, rfl⟩ := decodeFrame_ok hdec
      exact step_of_decode_ok hwf hev hdec
    | error why =>
      obtain rfl := decodeFrame_error hdec
      exact step_of_decode_error hwf hev hdec

theorem step_setEvents_cons {s : State} (hwf : s.cfg.wf = true) (e : Event) (rest : List Event) :
    step (s.setEvents (e :: rest)) = runEvent e (s.setEvents rest) :=
  step_cons (s := s.setEvents (e :: rest)) hwf rfl

theorem step_nil {s : State} (hwf : s.cfg.wf = true) (hev : s.events = []) : step s = .next s := by
  simp [step, fetchEvent, hwf, hev]

theorem step_illFormed {s : State} (hwf : s.cfg.wf = false) : step s = .refused .illFormedConfig := by
  simp [step, hwf]

/-- A step of a well-formed configuration idles or runs its first event. -/
theorem step_wf_cases {s : State} (hwf : s.cfg.wf = true) : (s.events = [] ∧ step s = .next s) ∨
    ∃ e rest, s.events = e :: rest ∧ step s = runEvent e (s.setEvents rest) := by
  cases hev : s.events with
  | nil => exact .inl ⟨rfl, step_nil hwf hev⟩
  | cons e rest => exact .inr ⟨e, rest, rfl, step_cons hwf hev⟩

/-- Only a step of a well-formed configuration answers a next state: the idle one, or its event's. -/
theorem step_next_cases {s t : State} (h : step s = .next t) : (s.events = [] ∧ t = s) ∨
    ∃ e rest, s.events = e :: rest ∧ runEvent e (s.setEvents rest) = .next t := by
  cases hwf : s.cfg.wf with
  | false => rw [step_illFormed hwf] at h; cases h
  | true =>
    obtain ⟨hev, hstep⟩ | ⟨e, rest, hev, hstep⟩ := step_wf_cases hwf
    · rw [hstep] at h
      cases h
      exact .inl ⟨hev, rfl⟩
    · exact .inr ⟨e, rest, hev, hstep ▸ h⟩

/-- Settles O5. -/
theorem stepRunsDecodedInstruction : Obligations.StepRunsDecodedInstruction :=
  fun _ _ _ _ hwf hev hdec => step_of_decode_ok hwf hev hdec

/-- Settles O6. -/
theorem stepWithoutEventOrConfiguration : Obligations.StepWithoutEventOrConfiguration :=
  fun _ => ⟨step_nil, step_illFormed⟩

/-! ### What a step refuses -/

theorem outcomeOf_ne_refused {r : Except Fault State} {why : Refusal} :
    outcomeOf r ≠ .refused why := by
  cases r <;> simp

/-- A call runs an operation, and no operation refuses. -/
theorem exec_call_ne_refused (op : Call) (s : State) (why : Refusal) :
    exec op.instr s ≠ .refused why := by
  cases op with
  | respReadInputRegisters | slaveOnByte | timerRx => exact outcomeOf_ne_refused
  | storeReadRegister i =>
    show execStoreReadRegister i s ≠ .refused why
    unfold execStoreReadRegister
    split <;> simp
  | _ =>
    intro h
    cases h

theorem runEvent_ne_refused (e : Event) (s : State) (why : Refusal) :
    runEvent e s ≠ .refused why := by
  cases e with
  | telemetry =>
    intro h
    cases h
  | fieldbus | frame => exact outcomeOf_ne_refused
  | call op => exact exec_call_ne_refused op s why

/-- A refused step is the refusal of an ill-formed configuration. -/
theorem step_refused {s : State} {why : Refusal} (h : step s = .refused why) :
    why = .illFormedConfig ∧ s.cfg.wf = false := by
  cases hwf : s.cfg.wf with
  | false =>
    rw [step_illFormed hwf] at h
    cases h
    exact ⟨rfl, rfl⟩
  | true =>
    obtain ⟨-, hstep⟩ | ⟨e, rest, -, hstep⟩ := step_wf_cases hwf
    · rw [hstep] at h
      cases h
    · exact absurd (hstep.symm.trans h) (runEvent_ne_refused _ _ _)

/-- Settles O10. -/
theorem stepNeverMeetsUnselectedRow : Obligations.StepNeverMeetsUnselectedRow :=
  ⟨fun _ h => Refusal.noConfusion (step_refused h).left, fun _ _ => step_refused⟩

/-! ### A frame is its bytes, one step each (R116, R121) -/

/-- A full frame, as one choice: the dispatch and the return to IDLE, or the return alone. -/
theorem completeFrame_eq (s : State) : completeFrame s =
    if frameCheck s then (dispatch (s.setCrcA (frameCrc s))).map toIdle
    else .ok (toIdle (s.setCrcA (frameCrc s))) := by
  simp only [completeFrame]
  cases dispatch (s.setCrcA (frameCrc s)) <;> rfl

section WaitingEvents

variable (ev : List Event) (s : State)

theorem respond_setEvents (start count : Nat) :
    respond start count (s.setEvents ev) = (respond start count s).map (State.setEvents ev) := by
  simp only [respond, State.setEvents_cfg, State.setEvents_store]
  cases readRegisters s.cfg s.store start count <;> rfl

theorem dispatch_setEvents :
    dispatch (s.setEvents ev) = (dispatch s).map (State.setEvents ev) := by
  simp only [dispatch, readInputRegisters, State.setEvents_cfg, State.setEvents_slv,
    respond_setEvents]
  split_ifs <;> rfl

theorem completeFrame_setEvents :
    completeFrame (s.setEvents ev) = (completeFrame s).map (State.setEvents ev) := by
  have hcheck : frameCheck (s.setEvents ev) = frameCheck s := rfl
  have hfed : (s.setEvents ev).setCrcA (frameCrc (s.setEvents ev)) =
      (s.setCrcA (frameCrc s)).setEvents ev := rfl
  simp only [completeFrame_eq, hcheck, hfed, dispatch_setEvents]
  split
  · cases dispatch (s.setCrcA (frameCrc s)) <;> rfl
  · rfl

/-- The events that wait make no difference to a fieldbus byte, and keep waiting. -/
theorem onByte_setEvents (b : Byte) (quiet : Bool) :
    onByte b quiet (s.setEvents ev) = (onByte b quiet s).map (State.setEvents ev) := by
  simp only [onByte, State.setEvents_slv]
  split
  · exact congrArg Except.ok (apply_ite (State.setEvents ev) (quiet = true ∧ b = s.cfg.devAddr)
      (addressMatched s) s).symm
  · exact congrArg Except.ok (apply_ite (State.setEvents ev) (b = funcRd) (functionMatched b s)
      (functionRejected s)).symm
  · have hlast := completeFrame_setEvents ev (storeFrameByte b s)
    have hcommute : storeFrameByte b (s.setEvents ev) = (storeFrameByte b s).setEvents ev := rfl
    simp only [collectByte, hcommute, State.setEvents_slv]
    split
    · exact hlast
    · rfl

end WaitingEvents

/-- The steps on bytes that are not quiet run `onBytes`. -/
theorem run_fieldbus_events (rest : List Event) : ∀ (p : List Byte) (s : State), s.cfg.wf = true →
    core.run p.length (s.setEvents (p.map (.fieldbus · false) ++ rest)) =
      outcomeOf (onBytes p (s.setEvents rest)) := by
  intro p
  induction p with
  | nil => exact fun _ _ => rfl
  | cons b p ih =>
    intro s hwf
    have hstep : core.step (s.setEvents ((b :: p).map (.fieldbus · false) ++ rest)) =
        outcomeOf ((onByte b false s).map
          (State.setEvents (p.map (.fieldbus · false) ++ rest))) :=
      (step_setEvents_cons hwf _ _).trans (congrArg outcomeOf (onByte_setEvents _ s b false))
    simp only [List.length_cons, Host.Core.run, hstep, onBytes, onByte_setEvents]
    cases hb : onByte b false s with
    | error f => rfl
    | ok t => exact ih t ((sameDecoderSide_onByte hb).cfg ▸ hwf)

/-- Settles O60: the first byte by its own step, the others by induction. -/
theorem frameIsItsByteEvents : Obligations.FrameIsItsByteEvents := by
  intro s bytes rest hwf
  have hframe : step (s.setEvents (.frame bytes :: rest)) =
      outcomeOf (onFrame bytes (s.setEvents rest)) := step_setEvents_cons hwf _ _
  refine hframe.trans ?_
  cases bytes with
  | nil => rfl
  | cons addr p =>
    have hfirst : core.step (s.setEvents (requestEvents (addr :: p) ++ rest)) =
        outcomeOf ((onByte addr true s).map
          (State.setEvents (p.map (.fieldbus · false) ++ rest))) :=
      (step_setEvents_cons hwf _ _).trans (congrArg outcomeOf (onByte_setEvents _ s addr true))
    change _ = core.run (p.length + 1) (s.setEvents (requestEvents (addr :: p) ++ rest))
    simp only [Host.Core.run, hfirst, onFrame, onByte_setEvents]
    cases hb : onByte addr true s with
    | error f => rfl
    | ok t => exact (run_fieldbus_events rest p t ((sameDecoderSide_onByte hb).cfg ▸ hwf)).symm

end Sys2Proof.Machine

namespace Sys2Proof.Machine

/-! SUPPORT. The invariants of R49: each field update and each shared operation keeps them, so every step
does; under them no byte event stops, and what is left to fault is a register read called directly. -/

/-! ### Field updates -/

section FieldUpdates

variable {s : State} (h : s.Inv)
include h

theorem State.Inv.setStore {st : Store} (hst : st.Inv s.cfg) : (s.setStore st).Inv :=
  ⟨h.cfg_wf, hst, h.dec, h.slv, h.tmr⟩

theorem State.Inv.setDec {d : Dec} (hd : d.Inv s.cfg) : (s.setDec d).Inv :=
  ⟨h.cfg_wf, h.store, hd, h.slv, h.tmr⟩

theorem State.Inv.setSlv {v : Slave} (hv : v.Inv) : (s.setSlv v).Inv :=
  ⟨h.cfg_wf, h.store, h.dec, hv, h.tmr⟩

theorem State.Inv.setTmr {t : Timer} (ht : t.elapsed ≤ s.cfg.tSilent) : (s.setTmr t).Inv :=
  ⟨h.cfg_wf, h.store, h.dec, h.slv, ht⟩

theorem State.Inv.setCrcA (x : Word16) : (s.setCrcA x).Inv := ⟨h.cfg_wf, h.store, h.dec, h.slv, h.tmr⟩

theorem State.Inv.setCrcB (x : Word16) : (s.setCrcB x).Inv := ⟨h.cfg_wf, h.store, h.dec, h.slv, h.tmr⟩

theorem State.Inv.setCrc (v : CrcVariant) (x : Word16) : (s.setCrc v x).Inv := by
  cases v with
  | A => exact h.setCrcA x
  | B => exact h.setCrcB x

theorem State.Inv.setTx (x : List TxEvent) : (s.setTx x).Inv :=
  ⟨h.cfg_wf, h.store, h.dec, h.slv, h.tmr⟩

theorem State.Inv.setEvents (x : List Event) : (s.setEvents x).Inv :=
  ⟨h.cfg_wf, h.store, h.dec, h.slv, h.tmr⟩

theorem State.Inv.setRet (x : Option RetVal) : (s.setRet x).Inv :=
  ⟨h.cfg_wf, h.store, h.dec, h.slv, h.tmr⟩

end FieldUpdates

/-! ### The Register Store -/

section StoreInv

variable {c : Cfg} {st : Store} (h : st.Inv c)
include h

theorem Store.Inv.reset : st.reset.Inv c where
  live_length := h.live_length
  staged_length := h.staged_length
  sset_length := by simp [h.sset_length]
  det_lt := by simp

theorem Store.Inv.presentCode (p : List Byte) : (st.presentCode c p).Inv c where
  live_length := h.live_length
  staged_length := h.staged_length
  sset_length := h.sset_length
  det_lt _ := matchCode_lt

theorem Store.Inv.presentValue (v : I64) : (st.presentValue v).Inv c where
  live_length := by simp [h.live_length]
  staged_length := by simp [h.staged_length]
  sset_length := by simp [h.sset_length]
  det_lt := by simp

theorem Store.Inv.commit : (st.commit c).Inv c where
  live_length := by simp [h.live_length]
  staged_length := h.staged_length
  sset_length := by simp [h.sset_length]
  det_lt := h.det_lt

end StoreInv

/-! ### Power-on -/

/-- Settles O11: only the lists of the Store are not literals. -/
theorem powerOnValues : Obligations.PowerOnValues := by
  intro c
  refine ⟨rfl, rfl, fun i hi => ⟨?_, ?_⟩, fun k hk => ?_, rfl, readRegister_zero _ _,
    readRegister_one _ _, rfl, rfl, rfl, rfl, rfl, rfl, rfl, rfl, rfl, rfl, rfl, rfl, rfl, rfl, rfl,
    rfl⟩
  · exact List.getElem?_replicate_of_lt hi
  · exact List.getElem?_replicate_of_lt hi
  · exact List.getElem?_replicate_of_lt hk

theorem Store.powerOn_inv (c : Cfg) : (Store.powerOn c).Inv c where
  live_length := List.length_replicate
  staged_length := List.length_replicate
  sset_length := List.length_replicate
  det_lt := nofun

theorem Dec.powerOn_inv (c : Cfg) : Dec.powerOn.Inv c where
  k_lt := by decide
  j_lt := by decide
  t_le := by decide
  depth_le := Nat.zero_le _
  level_open := nofun
  rem_le := by decide
  buf_le := Nat.zero_le _
  accum_rem := nofun

theorem Slave.powerOn_inv : Slave.powerOn.Inv where
  buf_length := rfl
  collecting := nofun
  otherwise _ := rfl

/-- Settles O12. -/
theorem powerOnKeepsInvariants : Obligations.PowerOnKeepsInvariants := by
  have h (c : Cfg) (hwf : c.wf = true) : (State.powerOn c).Inv :=
    ⟨hwf, Store.powerOn_inv c, Dec.powerOn_inv c, Slave.powerOn_inv, Nat.le_refl _⟩
  exact ⟨h, h _ (by decide)⟩

/-! ### The decoder: what completing an element can do -/

/-- An element's completion counts a child and returns to the structural position; its callback may set
the detected slot, stage a value or capture a scale, and writes nothing else (R224 to R230). -/
theorem completeElement_cases (tag : Tag) (p : List Byte) (s : State) :
    ∃ st x, completeElement tag p s = (s.setStore st).setDec
        { s.dec with scale := x, lv := childDone s.dec.lv, state := .inMsg } ∧
      (st = s.store ∨ st = s.store.presentCode s.cfg p ∨
        ∃ y, st = s.store.presentValue (toScale (intValue p) y)) := by
  cases hlv : s.dec.lv with
  | nil =>
    refine ⟨s.store, s.dec.scale, ?_, .inl rfl⟩
    rw [completeElement_closed hlv, childDone_nil, ← hlv]
    rfl
  | cons l ls =>
    obtain ⟨st, x, hcall, hst⟩ := callback_cases tag s.dec.d l.rd p s
    refine ⟨st, x, ?_, hst⟩
    rw [completeElement_open hlv, hcall, ← hlv]
    rfl

/-! ### The decoder's operations keep the invariants -/

/-- The invariants leave the decoder free to be at a structural position. -/
theorem State.Inv.atStructural {s : State} (h : s.Inv) :
    (s.setDec { s.dec with state := .inMsg }).Inv :=
  h.setDec { h.dec with accum_rem := nofun }

section DecoderOps

variable {s : State} (h : s.Inv)
include h

theorem State.Inv.feedCrcB (b : Byte) : (feedCrcB b s).Inv := h.setCrcB _

theorem State.Inv.fullReset : (fullReset s).Inv :=
  ((h.setDec (Dec.powerOn_inv _)).setCrcB _).setStore h.store.reset

theorem State.Inv.escapeSeen : (escapeSeen s).Inv := by
  unfold Machine.escapeSeen
  have hk := h.dec.k_lt
  split
  · exact h.setDec { h.dec with
      k_lt := show 0 < escRun by decide
      j_lt := show 0 < beginRun by decide
      accum_rem := nofun }
  · exact h.setDec { h.dec with k_lt := by dsimp only; omega }

theorem State.Inv.beginByteSeen : (beginByteSeen s).Inv := by
  unfold Machine.beginByteSeen
  have hj := h.dec.j_lt
  dsimp only
  split
  · exact (h.setStore h.store.reset).setDec
      { h.dec with
        j_lt := show 0 < beginRun by decide
        depth_le := Nat.zero_le _
        level_open := nofun
        rem_le := Nat.zero_le _
        buf_le := Nat.zero_le _
        accum_rem := nofun }
  · exact h.setDec { h.dec with j_lt := by dsimp only; omega }

theorem State.Inv.endMarker : (endMarker s).Inv := h.setDec { h.dec with accum_rem := nofun }

theorem State.Inv.endFill : (endFill s).Inv :=
  h.setDec { h.dec with t_le := Nat.zero_le _, accum_rem := nofun }

theorem State.Inv.trailerByte (b : Byte) : (trailerByte b s).Inv := by
  unfold Machine.trailerByte Machine.trailerHigh
  split
  · exact h.setDec { h.dec with t_le := Nat.le_refl _ }
  · split
    · exact (h.setStore h.store.commit).fullReset
    · exact (h.setStore h.store.reset).fullReset

theorem State.Inv.escInMessage : (escInMessage s).Inv :=
  h.setDec { h.dec with k_lt := show 1 < escRun by decide, accum_rem := nofun }

theorem State.Inv.closeCurrent : (closeCurrent s).Inv := by
  unfold Machine.closeCurrent
  cases hlv : s.dec.lv with
  | nil =>
    refine h.setDec { h.dec with depth_le := Nat.zero_le _, level_open := nofun }
  | cons l ls =>
    have hopen := h.dec.level_open
    have hdepth := h.dec.depth_le
    rw [hlv, List.forall_mem_cons] at hopen
    rw [Dec.d, hlv, List.length_cons] at hdepth
    exact h.setDec { h.dec with
      depth_le := (childDone_length_le ls).trans (by omega)
      level_open := childDone_open hopen.right }

theorem State.Inv.pushList {n : Nibble} (hn : n ≠ 0) : (pushList n s).Inv := by
  unfold Machine.pushList
  split
  · exact h.fullReset
  case isFalse hd =>
    have hdepth := h.dec.depth_le
    have hpos : 0 < n.toNat := Nat.pos_of_ne_zero (fun h0 => hn (BitVec.eq_of_toNat_eq h0))
    have hlt := n.isLt
    refine h.setDec { h.dec with
      depth_le := ?_
      level_open := List.forall_mem_cons.mpr ⟨⟨hpos, by dsimp only; omega⟩, h.dec.level_open⟩ }
    rw [Dec.d, List.length_cons]
    exact Nat.lt_of_le_of_ne hdepth hd

theorem State.Inv.startAccum (tag : Tag) {len : Nat} (hpos : len ≠ 0) (hlen : len ≤ 15)
    (hbuf : len ≤ s.cfg.elemBuf) : (startAccum tag len s).Inv :=
  h.setDec { h.dec with
    rem_le := hlen
    buf_le := by simpa using hbuf
    accum_rem := fun _ => Nat.pos_of_ne_zero hpos }

end DecoderOps

/-- The completion of an element ends at a structural position, so what the decoder's state was before
does not matter. -/
theorem State.Inv.completeElement {s : State} (tag : Tag) (p : List Byte)
    (h : (s.setDec { s.dec with state := .inMsg }).Inv) : (completeElement tag p s).Inv := by
  obtain ⟨st, x, hs, hst⟩ := completeElement_cases tag p s
  have hstore : st.Inv s.cfg := by
    rcases hst with rfl | rfl | ⟨y, rfl⟩
    · exact h.store
    · exact h.store.presentCode p
    · exact h.store.presentValue _
  rw [hs]
  exact (h.setStore hstore).setDec { h.dec with
    depth_le := (childDone_length_le _).trans h.dec.depth_le
    level_open := childDone_open h.dec.level_open }

theorem payloadLen_le (c : Cfg) (n : Nibble) : payloadLen c n ≤ 15 := by
  have := n.isLt
  unfold payloadLen
  omega

theorem State.Inv.scalarElement {s : State} (h : s.Inv) (tag : Tag) (n : Nibble) :
    (scalarElement tag n s).Inv := by
  unfold Machine.scalarElement
  split
  · exact h.atStructural.completeElement tag []
  case isFalse hpos =>
    split
    · exact h.fullReset
    case isFalse hbuf => exact h.startAccum tag hpos (payloadLen_le _ _) (Nat.not_lt.mp hbuf)

theorem State.Inv.structural {s : State} (h : s.Inv) (b : Byte) : (structural b s).Inv := by
  unfold Machine.structural
  split
  · exact h.escInMessage
  split
  · exact h.closeCurrent
  split
  · split
    · exact h.closeCurrent
    case isFalse hn => exact h.pushList hn
  split
  · exact h.scalarElement _ _
  · exact h.fullReset

theorem State.Inv.accumulate {s : State} (h : s.Inv) (b : Byte) (hstate : s.dec.state = .accum) :
    (accumulate b s).Inv := by
  have hrem := h.dec.accum_rem hstate
  have hle := h.dec.rem_le
  have hbuf := h.dec.buf_le
  have hlen : (s.dec.buf ++ [b]).length + (s.dec.rem - 1) ≤ s.cfg.elemBuf := by
    rw [List.length_append, List.length_singleton]
    omega
  unfold Machine.accumulate
  dsimp only
  split
  · exact State.Inv.completeElement _ _ (h.setDec { h.dec with
      rem_le := (Nat.sub_le _ _).trans hle, buf_le := hlen, accum_rem := nofun })
  case isFalse hlast =>
    exact h.setDec { h.dec with
      rem_le := (Nat.sub_le _ _).trans hle
      buf_le := hlen
      accum_rem := fun _ => Nat.pos_of_ne_zero hlast }

theorem State.Inv.seekEsc {s : State} (h : s.Inv) (b : Byte) : (seekEsc b s).Inv := by
  unfold Machine.seekEsc
  split
  · exact h.escapeSeen
  · exact h.fullReset

theorem State.Inv.seekType {s : State} (h : s.Inv) (b : Byte) : (seekType b s).Inv := by
  unfold Machine.seekType
  split
  · split
    · exact h.beginByteSeen
    split
    · exact h.endMarker
    split <;> exact h.fullReset
  · split
    · exact h.beginByteSeen
    · exact h.fullReset

/-- A telemetry byte keeps the invariants. -/
theorem State.Inv.feed {s : State} (h : s.Inv) (b : Byte) : (feed b s).Inv := by
  cases hstate : s.dec.state with
  | trailer => exact feed_trailer b hstate ▸ h.trailerByte b
  | seekEsc => exact feed_seekEsc b hstate ▸ (h.feedCrcB b).seekEsc b
  | seekType => exact feed_seekType b hstate ▸ (h.feedCrcB b).seekType b
  | endFill => exact feed_endFill b hstate ▸ (h.feedCrcB b).endFill
  | inMsg => exact feed_inMsg b hstate ▸ (h.feedCrcB b).structural b
  | accum => exact feed_accum b hstate ▸ (h.feedCrcB b).accumulate b hstate

/-! ### The Slave: what a dispatched frame can do -/

/-- A dispatch that runs sends one frame and does nothing else. -/
theorem dispatch_sends {s t : State} (h : dispatch s = .ok t) : ∃ body, t = sendFrame body s := by
  rcases dispatch_cases h with ⟨-, rfl⟩ | ⟨-, -, rfl⟩ | ⟨-, -, hrespond⟩
  · exact ⟨_, rfl⟩
  · exact ⟨_, rfl⟩
  · obtain ⟨ws, -, hok⟩ | ⟨f, -, herr⟩ := respond_cases (requestOf s.slv.buf).start.toNat
      (requestOf s.slv.buf).count.toNat s
    · rw [hok] at hrespond
      exact ⟨_, (Except.ok.inj hrespond).symm⟩
    · rw [herr] at hrespond
      cases hrespond

/-- A full frame leaves the Slave in IDLE; it is dropped, or answered by one frame (R265, R272). -/
theorem completeFrame_sends {s t : State} (h : completeFrame s = .ok t) :
    t = toIdle (s.setCrcA (frameCrc s)) ∨ ∃ body, t = toIdle (sendFrame body s) := by
  rcases completeFrame_cases h with ⟨-, rfl⟩ | ⟨-, u, hu, rfl⟩
  · exact .inl rfl
  · obtain ⟨body, rfl⟩ := dispatch_sends hu
    exact .inr ⟨body, rfl⟩

/-- With a whole live file a dispatch runs: a legal request asks for registers in range (R268). -/
theorem dispatch_ok {s : State} (hl : s.store.live.length = 2 * s.cfg.nCodes) :
    ∃ t, dispatch s = .ok t := by
  unfold dispatch readInputRegisters
  dsimp only
  split
  · exact ⟨_, rfl⟩
  split
  · exact ⟨_, rfl⟩
  case isFalse hlegal =>
    obtain ⟨hrange, -⟩ := Request.in_range (Bool.not_eq_true _ ▸ hlegal)
    obtain ⟨ws, hws, -, -⟩ := readRegisters_ok (c := s.cfg) (st := s.store) hl hrange
    exact ⟨_, by rw [respond, hws]⟩

theorem completeFrame_ok {s : State} (hl : s.store.live.length = 2 * s.cfg.nCodes) :
    ∃ t, completeFrame s = .ok t := by
  obtain ⟨u, hu⟩ := dispatch_ok (s := s.setCrcA (frameCrc s)) hl
  rw [completeFrame_eq, hu]
  split <;> exact ⟨_, rfl⟩

/-- Under the invariants no fieldbus byte faults (R306). -/
theorem onByte_ok {s : State} (h : s.Inv) (b : Byte) (quiet : Bool) :
    ∃ t, onByte b quiet s = .ok t := by
  unfold onByte collectByte
  split
  · exact ⟨_, rfl⟩
  · exact ⟨_, rfl⟩
  · dsimp only
    split
    · exact completeFrame_ok h.store.live_length
    · exact ⟨_, rfl⟩

/-! ### The Slave's operations keep the invariants -/

/-- A full frame ends in IDLE, so only what `toIdle` leaves has to keep the invariants before it. -/
theorem State.Inv.completeFrame {s t : State} (h : (toIdle s).Inv)
    (hs : Machine.completeFrame s = .ok t) : t.Inv := by
  rcases completeFrame_sends hs with rfl | ⟨body, rfl⟩
  · exact h.setCrcA _
  · exact (h.setCrcA (crcOf .A body)).setTx _

theorem State.Inv.idleByte {s : State} (h : s.Inv) (b : Byte) (quiet : Bool)
    (hstate : s.slv.state = .idle) : (idleByte b quiet s).Inv := by
  unfold Machine.idleByte
  split
  · exact h.setSlv
      { h.slv with collecting := nofun, otherwise := fun _ => h.slv.otherwise (by simp [hstate]) }
  · exact h

theorem State.Inv.funcByte {s : State} (h : s.Inv) (b : Byte) (hstate : s.slv.state = .addrMatched) :
    (funcByte b s).Inv := by
  have hn : s.slv.n = 0 := h.slv.otherwise (by simp [hstate])
  have hbuf := h.slv.buf_length
  unfold Machine.funcByte
  split
  case isTrue hb =>
    refine h.setSlv
      { buf_length := by rw [List.length_set, hbuf]
        collecting := fun _ => ⟨Nat.le_refl _, show 1 ≤ 6 by decide, ?_⟩
        otherwise := fun hne => absurd rfl hne }
    rw [List.getElem?_set_self (by rw [hbuf]; decide), hb]
  case isFalse => exact h.setSlv { h.slv with collecting := nofun, otherwise := fun _ => hn }

theorem State.Inv.collectByte {s t : State} (h : s.Inv) {b : Byte}
    (hstate : s.slv.state = .collecting) (hs : collectByte b s = .ok t) : t.Inv := by
  obtain ⟨hpos, hle, hfunc⟩ := h.slv.collecting hstate
  have hbuf : (s.slv.buf.set s.slv.n b).length = frameBuf := by
    rw [List.length_set, h.slv.buf_length]
  unfold Machine.collectByte at hs
  dsimp only at hs
  split at hs
  case isTrue =>
    have hidle : (toIdle (storeFrameByte b s)).Inv :=
      h.setSlv (v := { state := .idle, buf := s.slv.buf.set s.slv.n b, n := 0 })
        { buf_length := hbuf, collecting := nofun, otherwise := fun _ => rfl }
    exact hidle.completeFrame hs
  case isFalse hlast =>
    cases hs
    have hn : s.slv.n + 1 ≠ 7 := hlast
    refine h.setSlv
      { buf_length := hbuf
        collecting := fun _ => ⟨by dsimp only; omega, by dsimp only; omega, ?_⟩
        otherwise := fun hne => absurd hstate hne }
    rw [List.getElem?_set_ne (by omega), hfunc]

/-- A fieldbus byte keeps the invariants. -/
theorem State.Inv.onByte {s t : State} (h : s.Inv) {b : Byte} {quiet : Bool}
    (hs : onByte b quiet s = .ok t) : t.Inv := by
  unfold Machine.onByte at hs
  split at hs
  case h_1 hstate =>
    cases hs
    exact h.idleByte b quiet hstate
  case h_2 hstate =>
    cases hs
    exact h.funcByte b hstate
  case h_3 hstate => exact h.collectByte hstate hs

theorem onBytes_cons {b : Byte} {s u : State} (h : onByte b false s = .ok u) (p : List Byte) :
    onBytes (b :: p) s = onBytes p u := by
  rw [onBytes, h]

theorem onFrame_cons {b : Byte} {s u : State} (h : onByte b true s = .ok u) (p : List Byte) :
    onFrame (b :: p) s = onBytes p u := by
  rw [onFrame, h]

/-- Under the invariants a list of fieldbus bytes runs to its end, and they hold there. -/
theorem onBytes_ok (p : List Byte) : ∀ {s : State}, s.Inv → ∃ t, onBytes p s = .ok t ∧ t.Inv := by
  induction p with
  | nil => exact fun h => ⟨_, rfl, h⟩
  | cons b p ih =>
    intro s h
    obtain ⟨u, hu⟩ := onByte_ok h b false
    obtain ⟨t, ht, hinv⟩ := ih (h.onByte hu)
    exact ⟨t, (onBytes_cons hu p).trans ht, hinv⟩

theorem onFrame_ok (p : List Byte) {s : State} (h : s.Inv) : ∃ t, onFrame p s = .ok t ∧ t.Inv := by
  cases p with
  | nil => exact ⟨_, rfl, h⟩
  | cons addr p =>
    obtain ⟨u, hu⟩ := onByte_ok h addr true
    obtain ⟨t, ht, hinv⟩ := onBytes_ok p (h.onByte hu)
    exact ⟨t, (onFrame_cons hu p).trans ht, hinv⟩

theorem State.Inv.tick {s : State} (h : s.Inv) : (tick s).Inv := by
  unfold Machine.tick
  split
  case isTrue hlt => exact h.setTmr hlt
  case isFalse => exact h

theorem State.Inv.timerReset {s : State} (h : s.Inv) : (s.setTmr { elapsed := 0 }).Inv :=
  h.setTmr (Nat.zero_le _)

/-! ### Every step keeps the invariants -/

/-- An operation called by itself keeps the invariants. -/
theorem State.Inv.exec_call {s t : State} (h : s.Inv) {op : Call} (hs : exec op.instr s = .next t) :
    t.Inv := by
  cases op with
  | respReadInputRegisters start count =>
    obtain ⟨ws, -, hok⟩ | ⟨f, -, herr⟩ := respond_cases start.toNat count.toNat s
    · rw [outcomeOf_next.mp hs] at hok
      cases hok
      exact (h.setCrcA _).setTx _
    · rw [outcomeOf_next.mp hs] at herr
      cases herr
  | respExcIllegalFunction | respExcIllegalDataAddress =>
    cases hs
    exact (h.setCrcA _).setTx _
  | crcReset | crcFeed =>
    cases hs
    exact h.setCrc _ _
  | crcLowByte | crcHighByte | storeRegisterCount =>
    cases hs
    exact h.setRet _
  | storeReset =>
    cases hs
    exact h.setStore h.store.reset
  | storePresentCode p =>
    cases hs
    exact h.setStore (h.store.presentCode p)
  | storePresentValue v =>
    cases hs
    exact h.setStore (h.store.presentValue v)
  | storeCommit =>
    cases hs
    exact h.setStore h.store.commit
  | storeReadRegister i =>
    change execStoreReadRegister i s = .next t at hs
    unfold execStoreReadRegister at hs
    split at hs
    · cases hs
      exact h.setRet _
    · cases hs
  | decoderFeed b =>
    cases hs
    exact h.feed b
  | slaveOnByte => exact h.onByte (outcomeOf_next.mp hs)
  | timerTick =>
    cases hs
    exact h.tick
  | timerRx => exact h.timerReset.onByte (outcomeOf_next.mp hs)

theorem State.Inv.runEvent {s t : State} (h : s.Inv) {e : Event} (hs : runEvent e s = .next t) :
    t.Inv := by
  cases e with
  | telemetry b =>
    cases hs
    exact h.feed b
  | fieldbus => exact h.onByte (outcomeOf_next.mp hs)
  | frame bytes =>
    obtain ⟨u, hu, hinv⟩ := onFrame_ok bytes h
    rw [outcomeOf_next.mp hs] at hu
    exact Except.ok.inj hu ▸ hinv
  | call => exact h.exec_call hs

/-- Settles O13: the idle step keeps the state, and every event keeps the invariants. -/
theorem stepKeepsInvariants : Obligations.StepKeepsInvariants := by
  intro s t h hstep
  obtain ⟨-, rfl⟩ | ⟨e, rest, -, hrun⟩ := step_next_cases hstep
  · exact h
  · exact (h.setEvents rest).runEvent hrun

/-! ### Nothing stops the block but a register read out of range -/

/-- Settles O8. -/
theorem onByteRunsTheSelectedRow : Obligations.OnByteRunsTheSelectedRow := by
  intro s b quiet h
  obtain ⟨t, ht⟩ := onByte_ok h b quiet
  have hout : outcomeOf (onByte b quiet s) = .next t := outcomeOf_next.mpr ht
  exact ⟨t, hout, (exec_decodeFieldbus s b quiet).trans hout⟩

/-- An event of the environment is a telemetry byte, a fieldbus byte, a tick or an `rx`, each of which
has a next state under the invariants. -/
theorem runEvent_fromEnvironment {s : State} (h : s.Inv) {e : Event}
    (he : e.fromEnvironment = true) : ∃ t, runEvent e s = .next t := by
  cases e with
  | telemetry b => exact ⟨_, rfl⟩
  | fieldbus b quiet =>
    obtain ⟨t, ht⟩ := onByte_ok h b quiet
    exact ⟨t, outcomeOf_next.mpr ht⟩
  | frame => cases he
  | call op =>
    cases op with
    | decoderFeed | timerTick => exact ⟨_, rfl⟩
    | slaveOnByte b quiet =>
      obtain ⟨t, ht⟩ := onByte_ok h b quiet
      exact ⟨t, outcomeOf_next.mpr ht⟩
    | timerRx b =>
      obtain ⟨t, ht⟩ := onByte_ok h.timerReset b (quietFlag s.cfg s.tmr)
      exact ⟨t, outcomeOf_next.mpr ht⟩
    | _ => cases he

/-- Settles O16. -/
theorem environmentNeverStopsTheBlock : Obligations.EnvironmentNeverStopsTheBlock := by
  intro s e rest h hev he
  rw [step_cons h.cfg_wf hev]
  exact runEvent_fromEnvironment (h.setEvents rest) he

theorem readRegister_error {c : Cfg} {st : Store} {i : Nat} {f : Fault}
    (hl : st.live.length = 2 * c.nCodes) (h : readRegister c st i = .error f) :
    c.nReg ≤ i ∧ f = .readRegisterOutOfRange i := by
  by_cases hi : c.nReg ≤ i
  · rw [readRegister_out_of_range hi] at h
    exact ⟨hi, (Except.error.inj h).symm⟩
  · obtain ⟨w, hw⟩ := readRegister_ok (st := st) hl (Nat.not_le.mp hi)
    rw [hw] at h
    cases h

theorem readRegisters_error {c : Cfg} {st : Store} {f : Fault} {n : Nat}
    (hl : st.live.length = 2 * c.nCodes) : ∀ {i : Nat}, readRegisters c st i n = .error f →
      ∃ j, c.nReg ≤ j ∧ f = .readRegisterOutOfRange j := by
  induction n with
  | zero => exact nofun
  | succ n ih =>
    intro i h
    rw [readRegisters] at h
    split at h
    case h_1 g hg =>
      cases h
      exact ⟨i, readRegister_error hl hg⟩
    case h_2 w hw =>
      split at h
      case h_1 g hg =>
        cases h
        exact ih hg
      case h_2 => cases h

/-- The one fault of a called operation: a register read out of range (R171). -/
theorem exec_call_fault {s : State} (h : s.Inv) {op : Call} {f : Fault}
    (hs : exec op.instr s = .fault f) :
    ∃ i, s.cfg.nReg ≤ i ∧ f = .readRegisterOutOfRange i ∧ (op = .storeReadRegister i ∨
      ∃ start count : Byte, s.cfg.nReg < start.toNat + count.toNat ∧
        op = .respReadInputRegisters start count) := by
  have hl := h.store.live_length
  have onByte_faults {b quiet} {u : State} (hu : u.Inv) : outcomeOf (onByte b quiet u) ≠ .fault f := by
    obtain ⟨t, ht⟩ := onByte_ok hu b quiet
    rw [ht]
    exact nofun
  cases op with
  | storeReadRegister i =>
    change execStoreReadRegister i s = .fault f at hs
    unfold execStoreReadRegister at hs
    split at hs
    · cases hs
    case h_2 g hg =>
      cases hs
      obtain ⟨hi, hf⟩ := readRegister_error hl hg
      exact ⟨i, hi, hf, .inl rfl⟩
  | respReadInputRegisters start count =>
    change outcomeOf (respond start.toNat count.toNat s) = .fault f at hs
    obtain ⟨ws, -, hok⟩ | ⟨g, hread, herr⟩ := respond_cases start.toNat count.toNat s
    · rw [hok] at hs
      cases hs
    · rw [herr] at hs
      cases hs
      obtain ⟨i, hi, hf⟩ := readRegisters_error hl hread
      refine ⟨i, hi, hf, .inr ⟨start, count, Nat.lt_of_not_le fun hle => ?_, rfl⟩⟩
      obtain ⟨ws, hws, -, -⟩ := readRegisters_ok (c := s.cfg) (st := s.store) hl hle
      rw [hws] at hread
      cases hread
  | slaveOnByte => exact absurd hs (onByte_faults h)
  | timerRx => exact absurd hs (onByte_faults h.timerReset)
  | _ => cases hs

/-- Settles O17: no byte and no frame faults under the invariants, so the event is a call that does. -/
theorem onlyOutOfRangeReadFaults : Obligations.OnlyOutOfRangeReadFaults := by
  intro s f h hstep
  obtain ⟨-, hs⟩ | ⟨e, rest, hev, hs⟩ := step_wf_cases h.cfg_wf
  · rw [hs] at hstep
    cases hstep
  rw [hs] at hstep
  have hrest := h.setEvents rest
  cases e with
  | telemetry => cases hstep
  | fieldbus b quiet =>
    obtain ⟨t, ht⟩ := onByte_ok hrest b quiet
    rw [runEvent, ht] at hstep
    cases hstep
  | frame bytes =>
    obtain ⟨t, ht, -⟩ := onFrame_ok bytes hrest
    rw [runEvent, ht] at hstep
    cases hstep
  | call op =>
    obtain ⟨i, hi, hf, rfl | ⟨start, count, hlt, rfl⟩⟩ := exec_call_fault hrest hstep
    · exact ⟨i, hi, hf, .inl (by rw [hev]; rfl)⟩
    · exact ⟨i, hi, hf, .inr ⟨start, count, hlt, by rw [hev]; rfl⟩⟩

end Sys2Proof.Machine

namespace Sys2Proof.Machine

/-! SUPPORT. The Slave and the timer: the frames the Slave emits and how a receiver measures them (R113,
R114, R117), the answer to a full frame by its checksum and its range (R264 to R272), and what no fieldbus
event writes (R172). -/

/-! ### The bytes of a word, and of a frame -/

theorem loByte_eq_setWidth (w : Word16) : loByte w = w.setWidth 8 :=
  (BitVec.setWidth_eq_extractLsb' (by decide)).symm

theorem hiByte_eq_setWidth (w : Word16) : hiByte w = (w >>> 8).setWidth 8 :=
  (BitVec.setWidth_ushiftRight_eq_extractLsb ..).symm

theorem crcLow_B (w : Word16) : crcLow .B w = (w ^^^ 0xFFFF).setWidth 8 := loByte_eq_setWidth _

theorem crcHigh_B (w : Word16) : crcHigh .B w = ((w ^^^ 0xFFFF) >>> 8).setWidth 8 :=
  hiByte_eq_setWidth _

theorem wordBytes_eq :
    wordBytes = fun w : Word16 => [(w >>> 8).setWidth 8, w.setWidth 8] := by
  funext w
  rw [wordBytes, hiByte_eq_setWidth, loByte_eq_setWidth]

theorem responseBody_eq (c : Cfg) (count : Nat) (ws : List Word16) : responseBody c count ws =
    [c.devAddr, 0x04, BitVec.ofNat 8 (2 * count)] ++
      ws.flatMap (fun w : Word16 => [(w >>> 8).setWidth 8, w.setWidth 8]) := by
  rw [responseBody, wordBytes_eq]
  rfl

theorem length_withChecksum (body : List Byte) : (withChecksum body).length = body.length + 2 :=
  List.length_append

theorem length_flatMap_wordBytes (ws : List Word16) :
    (ws.flatMap wordBytes).length = 2 * ws.length := by
  induction ws with
  | nil => rfl
  | cons w ws ih =>
    rw [List.flatMap_cons, List.length_append, ih, List.length_cons]
    exact (Nat.add_comm _ _)

theorem length_responseBody (c : Cfg) (count : Nat) (ws : List Word16) :
    (responseBody c count ws).length = 3 + 2 * ws.length := by
  rw [responseBody, List.length_append, length_flatMap_wordBytes]
  rfl

/-- The register count fits the byte counts of the fieldbus (R10, R113). -/
theorem Cfg.wf_nReg_le {c : Cfg} (h : c.wf = true) : c.nReg ≤ 126 := by
  simp only [Cfg.wf, decide_eq_true_eq] at h
  obtain ⟨-, hcodes, -⟩ := h
  unfold Cfg.nReg
  omega

theorem responseLength_normal (c : Cfg) {n : Nat} (ws : List Word16) (hn : 2 * n < 256) :
    responseLength (withChecksum (responseBody c n ws)) = some (5 + 2 * n) := by
  have hthird : (BitVec.ofNat 8 (2 * n)).toNat = 2 * n := by
    rw [BitVec.toNat_ofNat]
    exact Nat.mod_eq_of_lt hn
  exact congrArg (fun k => some (5 + k)) hthird

theorem responseLength_exception (c : Cfg) (func code : Byte) :
    responseLength (withChecksum (exceptionBody c func code)) = some 5 := by
  have hbit : (func ||| 0x80).getLsbD 7 = true := by
    rw [BitVec.getLsbD_or]
    exact Bool.or_true _
  exact if_pos hbit

/-- Settles O4: the byte count of a normal response is exact, because the register file is small. -/
theorem receiverTellsResponseLength : Obligations.ReceiverTellsResponseLength := by
  intro c hwf
  have hnReg := Cfg.wf_nReg_le hwf
  refine ⟨fun ws hws => ?_, fun func code => ⟨responseLength_exception c func code, rfl⟩⟩
  have hlen : (withChecksum (responseBody c ws.length ws)).length = 3 + 2 * ws.length + 2 := by
    rw [length_withChecksum, length_responseBody]
  refine ⟨?_, hlen⟩
  rw [responseLength_normal c ws (by omega), hlen]
  exact congrArg some (by omega)

/-! ### Emission -/

/-- The emission of a frame, field by field (R270, R275). -/
theorem sendFrame_eq (body : List Byte) (s : State) : sendFrame body s = { s with
    crcA := crcOf .A body
    tx := s.tx ++ [TxEvent.gap] ++ (body ++ [crcLow .A (crcOf .A body),
      crcHigh .A (crcOf .A body)]).map TxEvent.byte } := by
  rw [List.append_assoc]
  rfl

/-- Settles O54. -/
theorem exceptionResponsesEmitted : Obligations.ExceptionResponsesEmitted :=
  fun s _ => ⟨congrArg Host.Outcome.next (sendFrame_eq _ s),
    congrArg Host.Outcome.next (sendFrame_eq _ s)⟩

/-- In range, the normal response is emitted with the words of its registers (R269). -/
theorem respond_in_range {s : State} {start count : Nat}
    (hl : s.store.live.length = 2 * s.cfg.nCodes) (h : start + count ≤ s.cfg.nReg) :
    ∃ ws : List Word16, ws.length = count ∧
      (∀ j w, ws[j]? = some w → readRegister s.cfg s.store (start + j) = .ok w) ∧
      respond start count s = .ok (sendFrame (responseBody s.cfg count ws) s) := by
  obtain ⟨ws, hws, hlen, hget⟩ := readRegisters_ok (c := s.cfg) (st := s.store) hl h
  exact ⟨ws, hlen, hget, by rw [respond, hws]⟩

/-- Settles O55. -/
theorem normalResponseEmitted : Obligations.NormalResponseEmitted := by
  intro s start count hl h
  obtain ⟨ws, hlen, hget, hok⟩ := respond_in_range hl h
  refine ⟨ws, hlen, hget, ?_⟩
  rw [responseBody_eq, sendFrame_eq] at hok
  exact congrArg outcomeOf hok

/-! ### A full frame, by its checksum and its range -/

/-- The Slave with a full buffer: the last byte has been stored, the frame not yet checked (R263). -/
def fullSlave (buf : List Byte) : Slave where
  state := .collecting
  buf := buf
  n := frameBuf

/-- The six tests of R268 all fail exactly for a request in range. -/
theorem Request.illegal_eq_false_iff {c : Cfg} {paramHi start countHi count : Byte} :
    (Request.mk paramHi start countHi count).illegal c = false ↔
      requestInRange c paramHi start countHi count := by
  simp only [Request.illegal, Bool.or_eq_false_iff, bne_eq_false_iff_eq, beq_eq_false_iff_ne,
    decide_eq_false_iff_not]
  simp only [Cfg.nReg, requestInRange]
  constructor
  · rintro ⟨⟨⟨⟨⟨hparam, hcount⟩, hstart⟩, hzero⟩, -⟩, hend⟩
    exact ⟨hparam, hcount, by omega, hzero, by omega⟩
  · rintro ⟨hparam, hcount, hstart, hzero, hend⟩
    exact ⟨⟨⟨⟨⟨hparam, hcount⟩, by omega⟩, hzero⟩, by omega⟩, by omega⟩

/-- The state after an answered frame: the Slave in IDLE, its buffer kept. -/
theorem toIdle_sendFrame (body buf : List Byte) (x : Word16) (s : State) :
    toIdle (sendFrame body ((s.setSlv (fullSlave buf)).setCrcA x)) = { s with
      crcA := crcOf .A body
      tx := s.tx ++ [TxEvent.gap] ++ (body ++ [crcLow .A (crcOf .A body),
        crcHigh .A (crcOf .A body)]).map TxEvent.byte
      slv := { state := .idle, buf := buf, n := 0 } } := by
  rw [sendFrame_eq]
  rfl

section FullFrame

variable {s : State} {b0 b1 b2 b3 b4 lo hi : Byte}

theorem frameCheck_iff : frameCheck (s.setSlv (fullSlave [b0, b1, b2, b3, b4, lo, hi])) = true ↔
    [lo, hi] = [crcLow .A (crcOf .A [s.cfg.devAddr, b0, b1, b2, b3, b4]),
      crcHigh .A (crcOf .A [s.cfg.devAddr, b0, b1, b2, b3, b4])] := by
  rw [frameCheck, Bool.and_eq_true, beq_iff_eq, beq_iff_eq, List.cons_eq_cons, List.cons_eq_cons]
  exact ⟨fun ⟨hlo, hhi⟩ => ⟨hlo.symm, hhi.symm, rfl⟩, fun ⟨hlo, hhi, _⟩ => ⟨hlo.symm, hhi.symm⟩⟩

/-- A wrong checksum drops the frame (R265). -/
theorem completeFrame_dropped
    (h : [lo, hi] ≠ [crcLow .A (crcOf .A [s.cfg.devAddr, b0, b1, b2, b3, b4]),
      crcHigh .A (crcOf .A [s.cfg.devAddr, b0, b1, b2, b3, b4])]) :
    completeFrame (s.setSlv (fullSlave [b0, b1, b2, b3, b4, lo, hi])) = .ok { s with
      crcA := crcOf .A [s.cfg.devAddr, b0, b1, b2, b3, b4]
      slv := { state := .idle, buf := [b0, b1, b2, b3, b4, lo, hi], n := 0 } } :=
  (completeFrame_eq _).trans (if_neg (mt frameCheck_iff.mp h))

/-- A right checksum dispatches it, and the Slave returns to IDLE (R266, R272). -/
theorem completeFrame_dispatched
    (h : [lo, hi] = [crcLow .A (crcOf .A [s.cfg.devAddr, b0, b1, b2, b3, b4]),
      crcHigh .A (crcOf .A [s.cfg.devAddr, b0, b1, b2, b3, b4])]) :
    completeFrame (s.setSlv (fullSlave [b0, b1, b2, b3, b4, lo, hi])) =
      (dispatch ((s.setSlv (fullSlave [b0, b1, b2, b3, b4, lo, hi])).setCrcA
        (crcOf .A [s.cfg.devAddr, b0, b1, b2, b3, b4]))).map toIdle :=
  (completeFrame_eq _).trans (if_pos (frameCheck_iff.mpr h))

variable {paramHi start countHi count : Byte} {x : Word16}

theorem dispatch_request : dispatch
    ((s.setSlv (fullSlave [0x04, paramHi, start, countHi, count, lo, hi])).setCrcA x) =
      if (Request.mk paramHi start countHi count).illegal s.cfg then
        .ok (sendFrame [s.cfg.devAddr, 0x84, 0x02]
          ((s.setSlv (fullSlave [0x04, paramHi, start, countHi, count, lo, hi])).setCrcA x))
      else respond start.toNat count.toNat
        ((s.setSlv (fullSlave [0x04, paramHi, start, countHi, count, lo, hi])).setCrcA x) := rfl

/-- A right request in range is answered with the words of its registers (R269). -/
theorem completeFrame_answered (hl : s.store.live.length = 2 * s.cfg.nCodes)
    (hrange : requestInRange s.cfg paramHi start countHi count)
    (h : [lo, hi] = [crcLow .A (crcOf .A [s.cfg.devAddr, 0x04, paramHi, start, countHi, count]),
      crcHigh .A (crcOf .A [s.cfg.devAddr, 0x04, paramHi, start, countHi, count])]) :
    ∃ ws : List Word16, ws.length = count.toNat ∧
      (∀ j w, ws[j]? = some w → readRegister s.cfg s.store (start.toNat + j) = .ok w) ∧
      (let body : List Byte := [s.cfg.devAddr, 0x04, BitVec.ofNat 8 (2 * count.toNat)] ++
          ws.flatMap (fun w : Word16 => [(w >>> 8).setWidth 8, w.setWidth 8])
       completeFrame (s.setSlv (fullSlave [0x04, paramHi, start, countHi, count, lo, hi])) =
        .ok { s with
          crcA := crcOf .A body
          tx := s.tx ++ [TxEvent.gap] ++ (body ++ [crcLow .A (crcOf .A body),
            crcHigh .A (crcOf .A body)]).map TxEvent.byte
          slv := { state := .idle, n := 0
                   buf := [0x04, paramHi, start, countHi, count, lo, hi] } }) := by
  have hlegal := Request.illegal_eq_false_iff.mpr hrange
  obtain ⟨-, -, -, -, hend⟩ := hrange
  obtain ⟨ws, hlen, hget, hok⟩ := respond_in_range
    (s := (s.setSlv (fullSlave [0x04, paramHi, start, countHi, count, lo, hi])).setCrcA
      (crcOf .A [s.cfg.devAddr, 0x04, paramHi, start, countHi, count])) hl hend
  refine ⟨ws, hlen, hget, ?_⟩
  rw [completeFrame_dispatched h, dispatch_request, hlegal, if_neg Bool.false_ne_true, hok,
    responseBody_eq]
  exact congrArg Except.ok (toIdle_sendFrame _ _ _ s)

/-- A right request out of range is answered with exception 0x02 (R271). -/
theorem completeFrame_exception (hrange : ¬ requestInRange s.cfg paramHi start countHi count)
    (h : [lo, hi] = [crcLow .A (crcOf .A [s.cfg.devAddr, 0x04, paramHi, start, countHi, count]),
      crcHigh .A (crcOf .A [s.cfg.devAddr, 0x04, paramHi, start, countHi, count])]) :
    (let body : List Byte := [s.cfg.devAddr, 0x84, 0x02]
     completeFrame (s.setSlv (fullSlave [0x04, paramHi, start, countHi, count, lo, hi])) =
      .ok { s with
        crcA := crcOf .A body
        tx := s.tx ++ [TxEvent.gap] ++ (body ++ [crcLow .A (crcOf .A body),
          crcHigh .A (crcOf .A body)]).map TxEvent.byte
        slv := { state := .idle, n := 0
                 buf := [0x04, paramHi, start, countHi, count, lo, hi] } }) := by
  have hillegal : (Request.mk paramHi start countHi count).illegal s.cfg = true :=
    (Bool.not_eq_false _).mp (mt Request.illegal_eq_false_iff.mp hrange)
  rw [completeFrame_dispatched h, dispatch_request, if_pos hillegal]
  exact congrArg Except.ok (toIdle_sendFrame _ _ _ s)

end FullFrame

/-! ### A byte in COLLECTING -/

/-- In COLLECTING the byte's row and `onByte` are one operation. -/
theorem exec_collecting {s : State} {b : Byte} {quiet : Bool} {i : Instr}
    (hstate : s.slv.state = .collecting)
    (hi : i ∈ [Instr.collectingData b quiet, Instr.slaveOnByte b quiet]) :
    exec i s = outcomeOf (collectByte b s) := by
  rw [List.mem_pair] at hi
  obtain rfl | rfl := hi
  · exact onRow_bus rfl hstate rfl
  · show outcomeOf (onByte b quiet s) = _
    rw [onByte, hstate]

theorem collectByte_stored {s : State} {b : Byte} (hn : s.slv.n ≠ 6) :
    collectByte b s = .ok (storeFrameByte b s) :=
  if_neg (show s.slv.n + 1 ≠ 7 by omega)

theorem collectByte_last {s : State} {b b0 b1 b2 b3 b4 lo x : Byte}
    (hstate : s.slv.state = .collecting) (hn : s.slv.n = 6)
    (hbuf : s.slv.buf = [b0, b1, b2, b3, b4, lo, x]) :
    collectByte b s = completeFrame (s.setSlv (fullSlave [b0, b1, b2, b3, b4, lo, b])) := by
  have hstored : storeFrameByte b s = s.setSlv (fullSlave [b0, b1, b2, b3, b4, lo, b]) := by
    simp only [storeFrameByte, hn, hbuf, hstate]
    rfl
  rw [collectByte, hstored]
  rfl

/-- Settles O50: the seventh byte makes the full frame of `completeFrame`, the others are stored. -/
theorem collectedByteStoredOrFrameDropped : Obligations.CollectedByteStoredOrFrameDropped := by
  intro s b quiet i hstate hi
  rw [exec_collecting hstate hi]
  refine ⟨fun hn => ?_, fun b0 b1 b2 b3 b4 lo x hn hbuf hcrc => ?_,
    fun paramHi start countHi count lo x hinv hn hbuf hcrc => ⟨fun hrange => ?_, fun hrange => ?_⟩⟩
  · rw [collectByte_stored hn]
    rfl
  · rw [collectByte_last hstate hn hbuf, completeFrame_dropped hcrc]
    rfl
  · obtain ⟨ws, hlen, hget, hok⟩ := completeFrame_answered hinv.store.live_length hrange hcrc
    exact ⟨ws, hlen, hget, by rw [collectByte_last hstate hn hbuf, hok]; rfl⟩
  · rw [collectByte_last hstate hn hbuf, completeFrame_exception hrange hcrc]
    rfl

/-! ### A request frame met in IDLE -/

theorem exists_of_length_seven {p : List Byte} (h : p.length = 7) :
    ∃ x0 x1 x2 x3 x4 x5 x6, p = [x0, x1, x2, x3, x4, x5, x6] := by
  match p, h with
  | [x0, x1, x2, x3, x4, x5, x6], _ => exact ⟨x0, x1, x2, x3, x4, x5, x6, rfl⟩

theorem onBytes_singleton (b : Byte) (s : State) : onBytes [b] s = onByte b false s := by
  unfold onBytes
  cases onByte b false s <;> rfl

/-- The eight bytes of a request take the Slave from IDLE to a full frame (R261 to R263). -/
theorem onFrame_request {s : State} (hstate : s.slv.state = .idle) (hlen : s.slv.buf.length = 7)
    (paramHi start countHi count lo hi : Byte) :
    onFrame [s.cfg.devAddr, funcRd, paramHi, start, countHi, count, lo, hi] s =
      completeFrame (s.setSlv (fullSlave [0x04, paramHi, start, countHi, count, lo, hi])) := by
  obtain ⟨x0, x1, x2, x3, x4, x5, x6, hbuf⟩ := exists_of_length_seven hlen
  have haddr : onByte s.cfg.devAddr true s =
      .ok (s.setSlv { state := .addrMatched, buf := s.slv.buf, n := s.slv.n }) := by
    simp [onByte, hstate, idleByte, addressMatched]
  have hfunc : onByte funcRd false
      (s.setSlv { state := .addrMatched, buf := s.slv.buf, n := s.slv.n }) =
      .ok (s.setSlv { state := .collecting, buf := [0x04, x1, x2, x3, x4, x5, x6], n := 1 }) := by
    rw [hbuf]
    rfl
  have hdata (b : Byte) (buf : List Byte) {n : Nat} (hn : n ≠ 6) :
      onByte b false (s.setSlv { state := .collecting, buf := buf, n := n }) =
        .ok (s.setSlv { state := .collecting, buf := buf.set n b, n := n + 1 }) :=
    collectByte_stored (s := s.setSlv { state := .collecting, buf := buf, n := n }) hn
  rw [onFrame_cons haddr, onBytes_cons hfunc, onBytes_cons (hdata _ _ (by decide)),
    onBytes_cons (hdata _ _ (by decide)), onBytes_cons (hdata _ _ (by decide)),
    onBytes_cons (hdata _ _ (by decide)), onBytes_cons (hdata _ _ (by decide)), onBytes_singleton]
  exact collectByte_last (s := s.setSlv
    { state := .collecting, buf := [0x04, paramHi, start, countHi, count, lo, x6], n := 6 })
    rfl rfl rfl

/-- Settles O51. -/
theorem requestAnsweredWithRegisters : Obligations.RequestAnsweredWithRegisters := by
  intro s paramHi start countHi count hinv hstate hrange
  obtain ⟨ws, hlen, hget, hok⟩ := completeFrame_answered hinv.store.live_length hrange rfl
  exact ⟨ws, hlen, hget, congrArg outcomeOf
    ((onFrame_request hstate hinv.slv.buf_length ..).trans hok)⟩

/-- Settles O52. -/
theorem requestOutOfRangeAnsweredWithException :
    Obligations.RequestOutOfRangeAnsweredWithException := by
  intro s paramHi start countHi count hlen hstate hrange
  exact congrArg outcomeOf
    ((onFrame_request hstate hlen ..).trans (completeFrame_exception hrange rfl))

/-- Settles O53. -/
theorem requestWithBadChecksumDropped : Obligations.RequestWithBadChecksumDropped := by
  intro s paramHi start countHi count lo hi hlen hstate req hcrc
  exact congrArg outcomeOf
    ((onFrame_request hstate hlen ..).trans (completeFrame_dropped hcrc))

end Sys2Proof.Machine

namespace Sys2Proof.Machine

/-! SUPPORT. What an event leaves of the transmit stream, of the waiting events and of the decoder's side
(R45, R81, R172), what the environment can make the Slave emit (R267), the byte filters (R261, R262) and the
silence timer (R273, R274). -/

/-! ### The byte filters -/

/-- Settles O49. -/
theorem addressAndFunctionFilters : Obligations.AddressAndFunctionFilters := by
  intro s b quiet
  refine ⟨fun h => onRow_bus rfl h rfl, fun h hother => onRow_bus rfl h ?_,
    fun h => onRow_bus rfl h rfl, fun h hb => onRow_bus rfl h (bne_iff_ne.mpr hb)⟩
  rcases hother with rfl | hb
  · rfl
  · simp [Instr.wellFormed, hb]

/-- Settles O57: only IDLE reads the flag. -/
theorem quietIgnoredOutsideIdle : Obligations.QuietIgnoredOutsideIdle := by
  intro s b h
  show outcomeOf (onByte b true s) = outcomeOf (onByte b false s)
  unfold onByte
  cases hstate : s.slv.state with
  | idle => exact absurd hstate h
  | addrMatched | collecting => rfl

/-! ### The silence timer -/

/-- Settles O58. -/
theorem tickCountsToSilentInterval : Obligations.TickCountsToSilentInterval := by
  intro s
  show Host.Outcome.next (tick s) = _
  unfold tick
  split <;> rfl

/-- Settles O59: `rx` is `onByte` on the state with the timer at 0, which no byte writes. -/
theorem rxComputesQuietAndResetsTimer : Obligations.RxComputesQuietAndResetsTimer := by
  intro s b h
  obtain ⟨t, ht⟩ := onByte_ok h.timerReset b (quietFlag s.cfg s.tmr)
  have hout : outcomeOf (rx b s) = .next t := outcomeOf_next.mpr ht
  exact ⟨t, hout, congrArg Timer.elapsed (sameDecoderSide_onByte ht).tmr, hout⟩

/-! ### The transmit stream only grows -/

theorem completeFrame_tx {s t : State} (h : completeFrame s = .ok t) : s.tx <+: t.tx := by
  rcases completeFrame_sends h with rfl | ⟨body, rfl⟩
  · exact List.prefix_refl _
  · exact List.prefix_append _ _

theorem onByte_tx {s t : State} {b : Byte} {quiet : Bool} (h : onByte b quiet s = .ok t) :
    s.tx <+: t.tx := by
  unfold onByte collectByte at h
  split at h
  · cases h
    unfold idleByte
    split <;> exact List.prefix_refl _
  · cases h
    unfold funcByte
    split <;> exact List.prefix_refl _
  · dsimp only at h
    split at h
    · exact completeFrame_tx (s := storeFrameByte b s) h
    · cases h
      exact List.prefix_refl _

/-- A list of bytes runs as its first byte and then the others. -/
theorem onBytes_cons_ok {b : Byte} {p : List Byte} {s t : State} (h : onBytes (b :: p) s = .ok t) :
    ∃ u, onByte b false s = .ok u ∧ onBytes p u = .ok t := by
  rw [onBytes] at h
  split at h
  case h_1 => cases h
  case h_2 u hu => exact ⟨u, hu, h⟩

theorem onFrame_cons_ok {b : Byte} {p : List Byte} {s t : State} (h : onFrame (b :: p) s = .ok t) :
    ∃ u, onByte b true s = .ok u ∧ onBytes p u = .ok t := by
  rw [onFrame] at h
  split at h
  case h_1 => cases h
  case h_2 u hu => exact ⟨u, hu, h⟩

theorem onBytes_tx {p : List Byte} : ∀ {s t : State}, onBytes p s = .ok t → s.tx <+: t.tx := by
  induction p with
  | nil =>
    intro s t h
    cases h
    exact List.prefix_refl _
  | cons b p ih =>
    intro s t h
    obtain ⟨u, hu, ht⟩ := onBytes_cons_ok h
    exact (onByte_tx hu).trans (ih ht)

theorem onFrame_tx {p : List Byte} {s t : State} (h : onFrame p s = .ok t) : s.tx <+: t.tx := by
  cases p with
  | nil =>
    cases h
    exact List.prefix_refl _
  | cons addr p =>
    obtain ⟨u, hu, ht⟩ := onFrame_cons_ok h
    exact (onByte_tx hu).trans (onBytes_tx ht)

/-- An operation called by itself appends to the transmit stream and leaves the waiting events. -/
theorem exec_call_tx {s t : State} {op : Call} (h : exec op.instr s = .next t) :
    s.tx <+: t.tx ∧ t.events = s.events := by
  cases op with
  | respReadInputRegisters start count =>
    have hs := outcomeOf_next.mp h
    refine ⟨?_, (sameDecoderSide_respond hs).events⟩
    obtain ⟨ws, -, hok⟩ | ⟨f, -, herr⟩ := respond_cases start.toNat count.toNat s
    · rw [hok] at hs
      cases hs
      exact List.prefix_append _ _
    · rw [herr] at hs
      cases hs
  | respExcIllegalFunction | respExcIllegalDataAddress =>
    cases h
    exact ⟨List.prefix_append _ _, rfl⟩
  | crcReset v | crcFeed v =>
    cases h
    cases v <;> exact ⟨List.prefix_refl _, rfl⟩
  | crcLowByte | crcHighByte | storeRegisterCount | storeReset | storePresentCode
  | storePresentValue | storeCommit =>
    cases h
    exact ⟨List.prefix_refl _, rfl⟩
  | storeReadRegister i =>
    change execStoreReadRegister i s = .next t at h
    unfold execStoreReadRegister at h
    split at h
    · cases h
      exact ⟨List.prefix_refl _, rfl⟩
    · cases h
  | decoderFeed b =>
    cases h
    have hside := sameSlaveSide_feed b s
    exact ⟨hside.tx ▸ List.prefix_refl _, hside.events⟩
  | slaveOnByte =>
    have hs := outcomeOf_next.mp h
    exact ⟨onByte_tx hs, (sameDecoderSide_onByte hs).events⟩
  | timerTick =>
    cases h
    unfold tick
    split <;> exact ⟨List.prefix_refl _, rfl⟩
  | timerRx b =>
    have hs : onByte b (quietFlag s.cfg s.tmr) (s.setTmr { elapsed := 0 }) = .ok t :=
      outcomeOf_next.mp h
    exact ⟨onByte_tx (s := s.setTmr { elapsed := 0 }) hs, (sameDecoderSide_onByte hs).events⟩

theorem runEvent_tx {s t : State} {e : Event} (h : runEvent e s = .next t) :
    s.tx <+: t.tx ∧ t.events = s.events := by
  cases e with
  | telemetry b => exact exec_call_tx (op := .decoderFeed b) h
  | fieldbus b quiet => exact exec_call_tx (op := .slaveOnByte b quiet) h
  | frame bytes =>
    have hs := outcomeOf_next.mp h
    exact ⟨onFrame_tx hs, (sameDecoderSide_onFrame hs).events⟩
  | call => exact exec_call_tx h

/-- Settles O15. -/
theorem transmitStreamOnlyGrows : Obligations.TransmitStreamOnlyGrows := by
  intro s t h
  obtain ⟨hev, rfl⟩ | ⟨e, rest, hev, hrun⟩ := step_next_cases h
  · rw [hev]
    exact ⟨List.prefix_refl _, rfl⟩
  · obtain ⟨htx, hevents⟩ := runEvent_tx hrun
    rw [hev]
    exact ⟨htx, hevents⟩

/-! ### The fieldbus and the timer write nothing of the decoder's -/

/-- The decoder's side but for the timer, which a tick and an `rx` write. -/
def KeepsDecoder (s t : State) : Prop :=
  t.crcB = s.crcB ∧ t.store = s.store ∧ t.dec = s.dec ∧ t.cfg = s.cfg ∧ t.ret = s.ret

theorem SameDecoderSide.keepsDecoder {s t : State} (h : SameDecoderSide s t) : KeepsDecoder s t :=
  ⟨h.crcB, h.store, h.dec, h.cfg, h.ret⟩

theorem keepsDecoder_tick (s : State) : KeepsDecoder s (tick s) := by
  unfold tick
  split <;> exact ⟨rfl, rfl, rfl, rfl, rfl⟩

/-- Settles O48: every such event is a Slave operation, the tick, or a byte after the timer's reset. -/
theorem fieldbusNeverWritesStoreOrDecoder : Obligations.FieldbusNeverWritesStoreOrDecoder := by
  intro s t e rest hev hstep he
  show KeepsDecoder (s.setEvents rest) t
  obtain ⟨hnil, -⟩ | ⟨e', rest', hev', hrun⟩ := step_next_cases hstep
  · rw [hev] at hnil
    cases hnil
  obtain ⟨rfl, rfl⟩ := List.cons.inj (hev.symm.trans hev')
  rcases he with ⟨b, quiet, rfl⟩ | ⟨bytes, rfl⟩ | ⟨b, quiet, rfl⟩ | rfl | ⟨b, rfl⟩ | rfl |
    ⟨func, rfl⟩ | ⟨start, count, rfl⟩
  · exact (sameDecoderSide_onByte (outcomeOf_next.mp hrun)).keepsDecoder
  · exact (sameDecoderSide_onFrame (outcomeOf_next.mp hrun)).keepsDecoder
  · exact (sameDecoderSide_onByte (outcomeOf_next.mp hrun)).keepsDecoder
  · cases hrun
    exact keepsDecoder_tick _
  · exact (sameDecoderSide_onByte (outcomeOf_next.mp hrun)).keepsDecoder
  · cases hrun
    exact (sameDecoderSide_sendFrame _ _).keepsDecoder
  · cases hrun
    exact (sameDecoderSide_sendFrame _ _).keepsDecoder
  · exact (sameDecoderSide_respond (outcomeOf_next.mp hrun)).keepsDecoder

/-! ### What the environment can make the Slave emit -/

/-- The transmit stream grows by nothing, by one normal response of registers as they read in `s`, or by
exception 0x02 (R267, R269, R271). -/
def EmitsAnswer (s t : State) : Prop :=
  t.tx = s.tx ∨
  (∃ (start : Nat) (ws : List Word16), ws ≠ [] ∧
    (∀ j w, ws[j]? = some w → readRegister s.cfg s.store (start + j) = .ok w) ∧
    t.tx = s.tx ++ frameEvents (withChecksum (responseBody s.cfg ws.length ws))) ∨
  t.tx = s.tx ++ frameEvents (withChecksum [s.cfg.devAddr, 0x84, 0x02])

/-- Behind the right function code no dispatch emits exception 0x01. -/
theorem emitsAnswer_dispatch {s t : State} (hl : s.store.live.length = 2 * s.cfg.nCodes)
    (hfunc : s.slv.buf.getD 0 0 = funcRd) (h : dispatch s = .ok t) : EmitsAnswer s t := by
  rcases dispatch_cases h with ⟨hne, -⟩ | ⟨-, -, rfl⟩ | ⟨-, hlegal, hrespond⟩
  · exact absurd hfunc hne
  · exact .inr (.inr rfl)
  · obtain ⟨hrange, hcount⟩ := Request.in_range hlegal
    obtain ⟨ws, hlen, hget, hok⟩ := respond_in_range hl hrange
    rw [hrespond] at hok
    cases hok
    refine .inr (.inl ⟨_, ws, fun hnil => hcount ?_, hget, by rw [hlen]; rfl⟩)
    rw [hnil] at hlen
    exact BitVec.eq_of_toNat_eq hlen.symm

theorem emitsAnswer_completeFrame {s t : State} (hl : s.store.live.length = 2 * s.cfg.nCodes)
    (hfunc : s.slv.buf.getD 0 0 = funcRd) (h : completeFrame s = .ok t) : EmitsAnswer s t := by
  rcases completeFrame_cases h with ⟨-, rfl⟩ | ⟨-, u, hu, rfl⟩
  · exact .inl rfl
  · have hsent : EmitsAnswer s u := emitsAnswer_dispatch (s := s.setCrcA (frameCrc s)) hl hfunc hu
    exact hsent

/-- In COLLECTING the buffer begins with the function code, which the last byte does not overwrite. -/
theorem emitsAnswer_onByte {s t : State} (h : s.Inv) {b : Byte} {quiet : Bool}
    (hs : onByte b quiet s = .ok t) : EmitsAnswer s t := by
  unfold onByte at hs
  split at hs
  case h_1 =>
    cases hs
    unfold idleByte
    split <;> exact .inl rfl
  case h_2 =>
    cases hs
    unfold funcByte
    split <;> exact .inl rfl
  case h_3 hstate =>
    obtain ⟨hpos, -, hfunc⟩ := h.slv.collecting hstate
    unfold collectByte at hs
    dsimp only at hs
    split at hs
    · refine emitsAnswer_completeFrame (s := storeFrameByte b s) h.store.live_length ?_ hs
      show (s.slv.buf.set s.slv.n b).getD 0 0 = funcRd
      rw [List.getD_eq_getElem?_getD, List.getElem?_set_ne (by omega), hfunc]
      rfl
    · cases hs
      exact .inl rfl

/-- Settles O56. -/
theorem illegalFunctionNeverEmitted : Obligations.IllegalFunctionNeverEmitted := by
  intro s t e rest h hev he hstep
  show EmitsAnswer (s.setEvents rest) t
  rw [step_cons h.cfg_wf hev] at hstep
  have hrest := h.setEvents rest
  cases e with
  | telemetry b =>
    cases hstep
    exact .inl (sameSlaveSide_feed b _).tx
  | fieldbus => exact emitsAnswer_onByte hrest (outcomeOf_next.mp hstep)
  | frame => cases he
  | call op =>
    cases op with
    | decoderFeed b =>
      cases hstep
      exact .inl (sameSlaveSide_feed b _).tx
    | slaveOnByte => exact emitsAnswer_onByte hrest (outcomeOf_next.mp hstep)
    | timerTick =>
      cases hstep
      unfold tick
      split <;> exact .inl rfl
    | timerRx b =>
      have hsent := emitsAnswer_onByte hrest.timerReset (outcomeOf_next.mp hstep)
      exact hsent
    | _ => cases he

end Sys2Proof.Machine

namespace Sys2Proof.Machine

/-! SUPPORT. The decoder's rows, each written out as the record it leaves: framing (R203 to R211),
structure (R213 to R222) and the completion of an element (R223 to R230). -/

/-! ### Shared operations as records -/

theorem fullReset_feedCrcB (b : Byte) (s : State) : fullReset (feedCrcB b s) = fullReset s := rfl

theorem fullReset_eq (s : State) : fullReset s = { s with
    crcB := 0xFFFF
    store := { s.store with sset := List.replicate s.store.sset.length false, det := none }
    dec := Dec.powerOn } := by
  rw [fullReset, Store.reset_eq]
  rfl

/-- Clearing the staging twice is clearing it once, so a discard before a full reset is the reset. -/
theorem fullReset_discard (s : State) : fullReset (s.setStore s.store.reset) = fullReset s := by
  rw [fullReset_eq, fullReset_eq]
  simp

theorem fullReset_commit (s : State) : fullReset (s.setStore (s.store.commit s.cfg)) = { s with
    crcB := 0xFFFF
    store := { s.store with
      live := (s.store.commit s.cfg).live
      sset := List.replicate s.store.sset.length false
      det := none }
    dec := Dec.powerOn } := by
  rw [fullReset_eq, State.setStore_store, Store.commit_sset, List.length_map]
  rfl

theorem escapeSeen_eq (s : State) : escapeSeen s = { s with
    dec := if s.dec.k + 1 = 4 then { s.dec with k := 0, j := 0, state := .seekType }
      else { s.dec with k := s.dec.k + 1 } } := by
  unfold escapeSeen escRun
  split <;> rfl

theorem beginByteSeen_counts {s : State} (h : s.dec.j ≠ 3) :
    beginByteSeen s = { s with dec := { s.dec with j := s.dec.j + 1 } } :=
  if_neg (show s.dec.j + 1 ≠ 4 by omega)

theorem beginByteSeen_begins {s : State} (h : s.dec.j = 3) : beginByteSeen s = { s with
    store := { s.store with sset := List.replicate s.store.sset.length false, det := none }
    dec := { s.dec with lv := [], tag := .octet, rem := 0, buf := [], scale := 0, j := 0,
                        state := .inMsg } } := by
  have hlast : beginByteSeen s = beginMessage (s.setDec { s.dec with j := s.dec.j + 1 }) :=
    if_pos (show s.dec.j + 1 = 4 by omega)
  rw [hlast, beginMessage, State.setDec_store, Store.reset_eq]
  rfl

/-! ### The framing rows -/

/-- Settles O26. -/
theorem seekEscEscapeCounts : Obligations.SeekEscEscapeCounts := by
  intro s h
  refine (onRow_tele rfl (decCtx_seekEsc h) rfl).trans ?_
  rw [escapeSeen_eq]
  rfl

/-- Settles O27. -/
theorem seekTypeBeginsOrEnds : Obligations.SeekTypeBeginsOrEnds := by
  intro s h
  refine ⟨fun hj => ?_, fun hj => ?_, fun hj hne => ?_, fun hj => ?_⟩
  · refine (onRow_tele rfl (decCtx_seekType_first h hj) rfl).trans ?_
    have hne : s.dec.j ≠ 3 := by omega
    rw [beginByteSeen_counts (s := feedCrcB beginByte s) hne, feedCrcB_dec, hj]
    rfl
  · exact onRow_tele rfl (decCtx_seekType_first h hj) rfl
  · refine (onRow_tele rfl (decCtx_seekType_rest h (by omega)) rfl).trans ?_
    rw [beginByteSeen_counts (s := feedCrcB beginByte s) hne]
    rfl
  · refine (onRow_tele rfl (decCtx_seekType_rest h (by omega)) rfl).trans ?_
    rw [beginByteSeen_begins (s := feedCrcB beginByte s) hj]
    rfl

theorem toNat_tlTag (b : Byte) : (tlTag b).toNat = b.toNat / 16 := by
  rw [tlTag, BitVec.extractLsb'_toNat, Nat.shiftRight_eq_div_pow]
  have := b.isLt
  omega

theorem illegalTag_of_mem {b : Byte}
    (h : b.toNat / 16 ∈ [1, 2, 3, 8, 9, 10, 11, 12, 13, 14, 15]) : illegalTag (tlTag b) = true := by
  rw [← toNat_tlTag] at h
  generalize tlTag b = tag at h
  revert tag
  decide

/-- Settles O28: each of the rows resets, whatever the byte put into the checksum. -/
theorem desyncRowsReset : Obligations.DesyncRowsReset := by
  intro s b t
  have hreset (c : Byte) : Host.Outcome.next (φ := Fault) (ρ := Refusal)
      (fullReset (feedCrcB c s)) = .next t := congrArg _ (fullReset_eq s)
  refine ⟨fun h hb => ?_, fun h hj => ?_, fun h hj hbegin hend hesc => ?_, fun h hj hb => ?_,
    fun h hesc htag => ?_⟩
  · refine (onRow_tele rfl (decCtx_seekEsc h) ?_).trans (hreset b)
    exact bne_iff_ne.mpr hb
  · exact (onRow_tele rfl (decCtx_seekType_first h hj) rfl).trans (hreset _)
  · refine (onRow_tele rfl (decCtx_seekType_first h hj) ?_).trans (hreset b)
    exact Bool.and_eq_true_iff.mpr ⟨Bool.and_eq_true_iff.mpr
      ⟨bne_iff_ne.mpr hbegin, bne_iff_ne.mpr hend⟩, bne_iff_ne.mpr hesc⟩
  · refine (onRow_tele rfl (decCtx_seekType_rest h (by omega)) ?_).trans (hreset b)
    exact bne_iff_ne.mpr hb
  · refine (onRow_tele rfl (decCtx_inMsg h) ?_).trans (hreset b)
    exact Bool.and_eq_true_iff.mpr ⟨illegalTag_of_mem htag, bne_iff_ne.mpr hesc⟩

/-- Settles O29. -/
theorem fillAndFirstTrailerByte : Obligations.FillAndFirstTrailerByte :=
  fun _ _ => ⟨fun h => onRow_tele rfl (decCtx_endFill h) rfl,
    fun h ht => onRow_tele rfl (decCtx_trailer_first h ht) rfl⟩

theorem trailerMatches_iff {b : Byte} {d : Dec} : trailerMatches b d = true ↔
    d.tlo = (d.snap ^^^ 0xFFFF).setWidth 8 ∧ b = ((d.snap ^^^ 0xFFFF) >>> 8).setWidth 8 := by
  rw [trailerMatches, Bool.and_eq_true, beq_iff_eq, beq_iff_eq, crcLow_B, crcHigh_B]

/-- Settles O30. -/
theorem trailerVerdict : Obligations.TrailerVerdict := by
  intro s b h ht
  refine (onRow_tele rfl (decCtx_trailer_second h ht) rfl).trans (congrArg Host.Outcome.next ?_)
  by_cases hmatch : trailerMatches b s.dec = true
  · rw [trailerHigh, if_pos hmatch, if_pos (trailerMatches_iff.mp hmatch), fullReset_commit]
  · rw [trailerHigh, if_neg hmatch, if_neg (mt trailerMatches_iff.mpr hmatch), fullReset_discard,
      fullReset_eq]

/-! ### The structural rows -/

theorem tlByte_eq_ofNat (tag n : Nibble) :
    tlByte tag n = BitVec.ofNat 8 (16 * tag.toNat + n.toNat) := by
  rw [← toNat_tlByte, BitVec.ofNat_toNat, BitVec.setWidth_eq]

theorem closeCurrent_closed {s : State} (h : s.dec.lv = []) : closeCurrent s = s := by
  rw [closeCurrent, h, closeCurrentLv, ← h]
  rfl

theorem closeCurrent_open {s : State} {l : Level} {ls : List Level} (h : s.dec.lv = l :: ls) :
    closeCurrent s = { s with dec := { s.dec with lv := childDone ls } } := by
  rw [closeCurrent, h, closeCurrentLv_cons]
  rfl

/-- Settles O31. -/
theorem escapeAndCloseRows : Obligations.EscapeAndCloseRows := by
  intro s h
  have hctx := decCtx_inMsg h
  have zero : exec .inMsgZero s = .next (closeCurrent (feedCrcB 0x00 s)) := onRow_tele rfl hctx rfl
  have close (hesc : s.cfg.escByte ≠ 0x70) :
      exec .inMsgListClose s = .next (closeCurrent (feedCrcB 0x70 s)) :=
    onRow_tele rfl hctx (bne_iff_ne.mpr hesc.symm)
  refine ⟨onRow_tele rfl hctx rfl, fun hlv => ⟨?_, fun hesc => ?_⟩,
    fun l ls hlv => ⟨?_, fun hesc => ?_⟩⟩
  · rw [zero, closeCurrent_closed (s := feedCrcB 0x00 s) hlv]
    rfl
  · rw [close hesc, closeCurrent_closed (s := feedCrcB 0x70 s) hlv]
    rfl
  · rw [zero, closeCurrent_open (s := feedCrcB 0x00 s) hlv]
    rfl
  · rw [close hesc, closeCurrent_open (s := feedCrcB 0x70 s) hlv]
    rfl

/-- Settles O33. -/
theorem listPushOpensLevel : Obligations.ListPushOpensLevel := by
  intro s n h hn hesc
  have hbyte : BitVec.ofNat 8 (0x70 + n.toNat) = tlByte 0x7 n := (tlByte_eq_ofNat 0x7 n).symm
  rw [hbyte] at hesc ⊢
  have hexec : exec (.inMsgListPush n) s = .next (pushList n (feedCrcB (tlByte 0x7 n) s)) :=
    onRow_tele rfl (decCtx_inMsg h)
      (Bool.and_eq_true_iff.mpr ⟨bne_iff_ne.mpr hn, bne_iff_ne.mpr hesc⟩)
  rw [hexec]
  by_cases hd : s.dec.lv.length = s.cfg.maxDepth
  · rw [if_pos hd, pushList, if_pos (by exact hd), decoderReset_eq, fullReset_feedCrcB, fullReset_eq]
  · rw [if_neg hd, pushList, if_neg (by exact hd)]
    rfl

/-- The scalar rows of count `n`: element type, row and TL byte (R103, R110). -/
def scalarRows (n : Nibble) : List (Tag × Instr × Byte) :=
  [(Tag.octet, Instr.inMsgOctet n, BitVec.ofNat 8 n.toNat),
    (Tag.bool, Instr.inMsgBool n, BitVec.ofNat 8 (0x40 + n.toNat)),
    (Tag.int, Instr.inMsgInt n, BitVec.ofNat 8 (0x50 + n.toNat)),
    (Tag.uint, Instr.inMsgUint n, BitVec.ofNat 8 (0x60 + n.toNat))]

/-- A selected scalar row runs `scalarElement` behind its TL byte. -/
theorem exec_scalarRow {s : State} {n : Nibble} {tag : Tag} {i : Instr} {b : Byte}
    (h : s.dec.state = .inMsg) (hn : n ≠ 0) (hmem : (tag, i, b) ∈ scalarRows n)
    (hesc : b ≠ s.cfg.escByte) : exec i s = .next (scalarElement tag n (feedCrcB b s)) := by
  have hctx := decCtx_inMsg h
  have wellFormed {t : Nibble} (hb : tlByte t n ≠ s.cfg.escByte) :
      (n != 0 && tlByte t n != s.cfg.escByte) = true :=
    Bool.and_eq_true_iff.mpr ⟨bne_iff_ne.mpr hn, bne_iff_ne.mpr hb⟩
  have h0 : BitVec.ofNat 8 n.toNat = tlByte 0x0 n := by
    rw [tlByte_eq_ofNat]
    exact congrArg _ (Nat.zero_add _).symm
  have h4 : BitVec.ofNat 8 (0x40 + n.toNat) = tlByte 0x4 n := (tlByte_eq_ofNat 0x4 n).symm
  have h5 : BitVec.ofNat 8 (0x50 + n.toNat) = tlByte 0x5 n := (tlByte_eq_ofNat 0x5 n).symm
  have h6 : BitVec.ofNat 8 (0x60 + n.toNat) = tlByte 0x6 n := (tlByte_eq_ofNat 0x6 n).symm
  simp only [scalarRows, h0, h4, h5, h6, List.mem_cons, List.not_mem_nil, or_false,
    Prod.mk.injEq] at hmem
  obtain ⟨rfl, rfl, rfl⟩ | ⟨rfl, rfl, rfl⟩ | ⟨rfl, rfl, rfl⟩ | ⟨rfl, rfl, rfl⟩ := hmem
  · exact onRow_tele rfl hctx (wellFormed hesc)
  · exact onRow_tele rfl hctx (wellFormed hesc)
  · exact onRow_tele rfl hctx (wellFormed hesc)
  · exact onRow_tele rfl hctx (wellFormed hesc)

/-- Settles O34. -/
theorem scalarRowsStartAccumulating : Obligations.ScalarRowsStartAccumulating := by
  intro s n h hbias tag i b hmem hesc
  have hn : n ≠ 0 := by
    rintro rfl
    exact Nat.not_lt_zero _ hbias
  have hlen : payloadLen (feedCrcB b s).cfg n = n.toNat - s.cfg.tlLenBias := rfl
  rw [exec_scalarRow h hn hmem hesc, scalarElement, hlen, if_neg (by omega), feedCrcB_cfg]
  by_cases hfit : n.toNat - s.cfg.tlLenBias ≤ s.cfg.elemBuf
  · rw [if_pos hfit, if_neg (Nat.not_lt.mpr hfit)]
    rfl
  · rw [if_neg hfit, if_pos (Nat.not_le.mp hfit), decoderReset_eq, fullReset_feedCrcB, fullReset_eq]

/-! ### The callback, by the element's type (R225 to R228) -/

section Callback

variable (depth pos : Nat) (p : List Byte) (s : State)

theorem callback_untracked {depth : Nat} (tag : Tag) (h : depth ≠ s.cfg.codeDepth) :
    callback tag depth pos p s = s := if_pos h

theorem callback_octet : callback .octet s.cfg.codeDepth pos p s =
    if pos = s.cfg.codePos then presentCode p s else s := by
  simp [callback]

theorem callback_int : callback .int s.cfg.codeDepth pos p s =
    if pos = s.cfg.valuePos then
      presentReading p (if pos = s.cfg.scalePos then captureScale p s else s)
    else if pos = s.cfg.scalePos then captureScale p s else s := by
  simp [callback]

theorem callback_bool : callback .bool depth pos p s = s := by simp [callback]

theorem callback_uint : callback .uint depth pos p s = s := by simp [callback]

end Callback

theorem captureScale_none {p : List Byte} {s : State} (h : scalerValue p = none) :
    captureScale p s = s := by
  rw [captureScale, h]

theorem presentCode_empty (s : State) :
    presentCode [] s = s.setStore { s.store with det := none } := rfl

/-- The callback of an element without payload: a code position clears the slot, a value position
presents 0 (R226, R228). -/
theorem callback_empty (tag : Tag) (depth pos : Nat) (s : State) :
    callback tag depth pos [] s = s.setStore (
      if depth = s.cfg.codeDepth ∧ tag = .octet ∧ pos = s.cfg.codePos then { s.store with det := none }
      else if depth = s.cfg.codeDepth ∧ tag = .int ∧ pos = s.cfg.valuePos then
        s.store.presentValue (toScale 0 s.dec.scale)
      else s.store) := by
  by_cases hd : depth = s.cfg.codeDepth
  · subst hd
    cases tag with
    | octet =>
      rw [callback_octet, presentCode_empty]
      by_cases hpos : pos = s.cfg.codePos <;> simp [hpos]
    | int =>
      have hread : presentReading [] s = s.setStore (s.store.presentValue (toScale 0 s.dec.scale)) :=
        rfl
      rw [callback_int, captureScale_none rfl, ite_self, hread]
      by_cases hpos : pos = s.cfg.valuePos <;> simp [hpos]
    | bool => simp [callback_bool]
    | uint => simp [callback_uint]
  · simp [callback_untracked, hd]

theorem exec_emptyRow {s : State} {tag : Tag} {i : Instr} {b : Byte} (h : s.dec.state = .inMsg)
    (hmem : (tag, i, b) ∈ [(Tag.bool, Instr.inMsgBoolEmpty, 0x40), (Tag.int, Instr.inMsgIntEmpty, 0x50),
      (Tag.uint, Instr.inMsgUintEmpty, 0x60)]) (hesc : b ≠ s.cfg.escByte) :
    exec i s = .next (scalarElement tag 0 (feedCrcB b s)) := by
  have hctx := decCtx_inMsg h
  simp only [List.mem_cons, List.not_mem_nil, or_false, Prod.mk.injEq] at hmem
  obtain ⟨rfl, rfl, rfl⟩ | ⟨rfl, rfl, rfl⟩ | ⟨rfl, rfl, rfl⟩ := hmem
  · exact onRow_tele rfl hctx (bne_iff_ne.mpr hesc)
  · exact onRow_tele rfl hctx (bne_iff_ne.mpr hesc)
  · exact onRow_tele rfl hctx (bne_iff_ne.mpr hesc)

theorem scalarElement_empty {tag : Tag} {n : Nibble} {s : State} (h : n.toNat ≤ s.cfg.tlLenBias) :
    scalarElement tag n s = completeElement tag [] s :=
  if_pos (Nat.sub_eq_zero_of_le h)

/-- Settles O35: either form runs the completion of an empty element. -/
theorem inlineElementsComplete : Obligations.InlineElementsComplete := by
  intro s tag i b h hrow hesc
  have hexec : exec i s = .next (completeElement tag [] (feedCrcB b s)) := by
    obtain hmem | ⟨n, hn, hbias, hmem⟩ := hrow
    · rw [exec_emptyRow h hmem hesc, scalarElement_empty (Nat.zero_le _)]
    · rw [exec_scalarRow h hn hmem hesc, scalarElement_empty (s := feedCrcB b s) hbias]
  refine hexec.trans (congrArg Host.Outcome.next ?_)
  cases hlv : s.dec.lv with
  | nil =>
    rw [completeElement_closed (s := feedCrcB b s) hlv, childDone_nil, ← hlv]
    simp only [hlv, List.head?_nil, Option.map_none, reduceCtorEq, and_false, if_false]
    rw [← h, ← hlv]
    rfl
  | cons l ls =>
    rw [completeElement_open (s := feedCrcB b s) hlv, callback_empty]
    simp only [feedCrcB_dec, feedCrcB_cfg, feedCrcB_store, State.setStore_dec, Dec.d, hlv,
      List.head?_cons, Option.map_some, Option.some.injEq]
    rw [← h]
    rfl

/-! ### Payload bytes (R223) -/

theorem accumulate_more {b : Byte} {s : State} (h : 2 ≤ s.dec.rem) : accumulate b s =
    { s with dec := { s.dec with buf := s.dec.buf ++ [b], rem := s.dec.rem - 1 } } :=
  if_neg (show s.dec.rem - 1 ≠ 0 by omega)

theorem accumulate_last {b : Byte} {s : State} (h : s.dec.rem = 1) : accumulate b s =
    completeElement s.dec.tag (s.dec.buf ++ [b])
      { s with dec := { s.dec with buf := s.dec.buf ++ [b], rem := 0 } } := by
  have hrem : s.dec.rem - 1 = 0 := by omega
  rw [accumulate, State.setDec_dec, hrem]
  rfl

/-- Settles O36. -/
theorem payloadByteCollected : Obligations.PayloadByteCollected := by
  intro s b h
  have hexec : exec (.accumData b) s = .next (accumulate b (feedCrcB b s)) :=
    onRow_tele rfl (decCtx_accum h) rfl
  refine ⟨fun hrem => ?_, fun hrem hlv => ?_⟩
  · rw [hexec, accumulate_more (s := feedCrcB b s) hrem]
    rfl
  · rw [hexec, accumulate_last (s := feedCrcB b s) hrem, completeElement_closed (by exact hlv)]
    rfl

/-! ### The last payload byte (R224 to R228) -/

theorem presentReading_eq (p : List Byte) (s : State) : presentReading p s =
    s.setStore (s.store.presentValue (toScale (intValue p) s.dec.scale)) := rfl

/-- Writing the decoder's own scale back changes nothing. -/
theorem State.setDec_scale_self (s : State) : s.setDec { s.dec with scale := s.dec.scale } = s := rfl

theorem State.setStore_setDec_scale_self (st : Store) (s : State) :
    (s.setStore st).setDec { s.dec with scale := s.dec.scale } = s.setStore st := rfl

/-- A scale is captured from a one-byte Integer only (R108, R227). -/
theorem captureScale_append (q : List Byte) (b : Byte) (s : State) : captureScale (q ++ [b]) s =
    s.setDec { s.dec with scale := if q ++ [b] = [b] then b else s.dec.scale } := by
  match q with
  | [] => simp [captureScale, scalerValue]
  | [x] => simp [captureScale, scalerValue, State.setDec_scale_self]
  | x :: y :: q => simp [captureScale, scalerValue, State.setDec_scale_self]

/-- The callback of an element whose last payload byte is `b`: each tracked position has its effect, and
no position is both a scaler's and a value's (R10). -/
theorem callback_append (tag : Tag) (depth pos : Nat) (q : List Byte) (b : Byte) (s : State)
    (hpos : s.cfg.scalePos ≠ s.cfg.valuePos) : callback tag depth pos (q ++ [b]) s =
    (s.setStore (
      if depth = s.cfg.codeDepth ∧ tag = .octet ∧ pos = s.cfg.codePos then
        s.store.presentCode s.cfg (q ++ [b])
      else if depth = s.cfg.codeDepth ∧ tag = .int ∧ pos = s.cfg.valuePos then
        s.store.presentValue (toScale (intValue (q ++ [b])) s.dec.scale)
      else s.store)).setDec { s.dec with
        scale := if depth = s.cfg.codeDepth ∧ tag = .int ∧ pos = s.cfg.scalePos ∧ q ++ [b] = [b]
          then b else s.dec.scale } := by
  have keep := State.setDec_scale_self s
  have keepStore (st : Store) := State.setStore_setDec_scale_self st s
  by_cases hd : depth = s.cfg.codeDepth
  · subst hd
    cases tag with
    | octet =>
      rw [callback_octet]
      by_cases hcode : pos = s.cfg.codePos <;> simp [hcode, presentCode, keep, keepStore]
    | int =>
      rw [callback_int, captureScale_append]
      by_cases hvalue : pos = s.cfg.valuePos
      · simp [hvalue, hpos.symm, presentReading_eq, keepStore]
      · by_cases hscale : pos = s.cfg.scalePos <;> simp [hscale, hpos, hvalue, keep]
    | bool => simp [callback_bool, keep]
    | uint => simp [callback_uint, keep]
  · simp [callback_untracked, hd, keep]

/-- Settles O37: the last byte completes the element, at the depth and position its level has. -/
theorem lastPayloadByteCompletesElement : Obligations.LastPayloadByteCompletesElement := by
  intro s b p l ls h hrem hp hlv hpos
  have hexec : exec (.accumData b) s = .next (accumulate b (feedCrcB b s)) :=
    onRow_tele rfl (decCtx_accum h) rfl
  rw [hexec, accumulate_last (s := feedCrcB b s) hrem, completeElement_open (by exact hlv),
    callback_append _ _ _ _ _ _ (by exact hpos), ← hp, ← hlv]
  rfl

end Sys2Proof.Machine

namespace Sys2Proof.Machine

/-! SUPPORT. Runs of telemetry bytes: escape runs, the begin and end sequences (R101, R203 to R211), the
payload of an element (R223), a whole message, and the bound on resynchronisation (R307). -/

/-! ### Escape runs and the begin marker -/

section Sequences

variable {s : State}

theorem feed_escape_counts (h : s.dec.state = .seekEsc) (hk : s.dec.k ≠ 3) :
    feed s.cfg.escByte s = { s with
      crcB := crcStep .B s.crcB s.cfg.escByte, dec := { s.dec with k := s.dec.k + 1 } } := by
  rw [feed_seekEsc _ h, seekEsc, if_pos (by rfl), escapeSeen_eq, feedCrcB_dec, if_neg (by omega)]
  rfl

theorem feed_escape_fourth (h : s.dec.state = .seekEsc) (hk : s.dec.k = 3) :
    feed s.cfg.escByte s = { s with
      crcB := crcStep .B s.crcB s.cfg.escByte
      dec := { s.dec with k := 0, j := 0, state := .seekType } } := by
  rw [feed_seekEsc _ h, seekEsc, if_pos (by rfl), escapeSeen_eq, feedCrcB_dec, if_pos (by omega)]
  rfl

theorem feed_escape_inMsg (h : s.dec.state = .inMsg) : feed s.cfg.escByte s = { s with
    crcB := crcStep .B s.crcB s.cfg.escByte, dec := { s.dec with state := .seekEsc, k := 1 } } := by
  rw [feed_inMsg _ h, structural, if_pos (by rfl)]
  rfl

theorem feed_begin (h : s.dec.state = .seekType) :
    feed beginByte s = beginByteSeen (feedCrcB beginByte s) := by
  rw [feed_seekType _ h, seekType, if_pos rfl, if_pos rfl, ite_self]

theorem feed_begin_counts (h : s.dec.state = .seekType) (hj : s.dec.j ≠ 3) :
    feed beginByte s = { s with
      crcB := crcStep .B s.crcB beginByte, dec := { s.dec with j := s.dec.j + 1 } } := by
  rw [feed_begin h, beginByteSeen_counts (s := feedCrcB beginByte s) hj]
  rfl

theorem feed_begin_fourth (h : s.dec.state = .seekType) (hj : s.dec.j = 3) :
    feed beginByte s = { s with
      crcB := crcStep .B s.crcB beginByte
      store := { s.store with sset := List.replicate s.store.sset.length false, det := none }
      dec := { s.dec with lv := [], tag := .octet, rem := 0, buf := [], scale := 0, j := 0,
                          state := .inMsg } } := by
  rw [feed_begin h, beginByteSeen_begins (s := feedCrcB beginByte s) hj]
  rfl

end Sequences

/-- The escapes that complete the run lead to SEEK_TYPE (R203). -/
theorem feedAll_escapes (n : Nat) : ∀ {s : State}, s.dec.state = .seekEsc → s.dec.k + (n + 1) = 4 →
    feedAll (List.replicate (n + 1) s.cfg.escByte) s = { s with
      crcB := crcFold .B s.crcB (List.replicate (n + 1) s.cfg.escByte)
      dec := { s.dec with k := 0, j := 0, state := .seekType } } := by
  induction n with
  | zero =>
    intro s h hk
    exact feed_escape_fourth h (by omega)
  | succ n ih =>
    intro s h hk
    rw [List.replicate_succ, feedAll_cons, feed_escape_counts h (by omega)]
    exact ih h (show s.dec.k + 1 + (n + 1) = 4 by omega)

/-- The begin bytes that complete the marker begin the message (R204 to R206). -/
theorem feedAll_begins (n : Nat) : ∀ {s : State}, s.dec.state = .seekType → s.dec.j + (n + 1) = 4 →
    feedAll (List.replicate (n + 1) beginByte) s = { s with
      crcB := crcFold .B s.crcB (List.replicate (n + 1) beginByte)
      store := { s.store with sset := List.replicate s.store.sset.length false, det := none }
      dec := { s.dec with lv := [], tag := .octet, rem := 0, buf := [], scale := 0, j := 0,
                          state := .inMsg } } := by
  induction n with
  | zero =>
    intro s h hj
    exact feed_begin_fourth h (by omega)
  | succ n ih =>
    intro s h hj
    rw [List.replicate_succ, feedAll_cons, feed_begin_counts h (by omega)]
    exact ih h (show s.dec.j + 1 + (n + 1) = 4 by omega)

/-- Settles O42: the escape run, then the begin marker. -/
theorem beginSequenceBeginsMessage : Obligations.BeginSequenceBeginsMessage := by
  intro s h hk
  rw [beginSequence, feedAll_append, crcFold_append, escapeRun, escRun,
    feedAll_escapes 3 h (by rw [hk])]
  exact feedAll_begins 3 rfl rfl

/-! ### The end sequence and the trailer -/

/-- The end sequence at a structural position snapshots the checksum over it (R208, R209, R213). -/
theorem feedAll_endSequence {s : State} (h : s.dec.state = .inMsg) (fill : Byte) :
    feedAll (endSequence s.cfg fill) s = { s with
      crcB := crcFold .B s.crcB (endSequence s.cfg fill)
      dec := { s.dec with k := 0, j := 0, t := 0, state := .trailer
                          snap := crcFold .B s.crcB (endSequence s.cfg fill) } } := by
  have hrun : endSequence s.cfg fill =
      s.cfg.escByte :: (List.replicate 3 s.cfg.escByte ++ [endByte, fill]) := rfl
  have hescapes := feedAll_escapes 2
    (s := { s with
      crcB := crcStep .B s.crcB s.cfg.escByte, dec := { s.dec with state := .seekEsc, k := 1 } })
    rfl rfl
  rw [hrun, feedAll_cons, feed_escape_inMsg h, feedAll_append, hescapes]
  rfl

/-- The two trailer bytes: the snapshot decides (R210, R211). -/
theorem feedAll_trailer {s : State} (h : s.dec.state = .trailer) (ht : s.dec.t = 0) (lo hi : Byte) :
    feedAll [lo, hi] s =
      if [lo, hi] = [crcLow .B s.dec.snap, crcHigh .B s.dec.snap]
      then fullReset (s.setStore (s.store.commit s.cfg)) else fullReset s := by
  have hlo : feed lo s = trailerLow lo s := (feed_trailer lo h).trans (if_pos ht)
  have hhi : feed hi (trailerLow lo s) = trailerHigh hi (trailerLow lo s) :=
    feed_trailer (s := trailerLow lo s) hi h
  have hmatch : trailerMatches hi (trailerLow lo s).dec = true ↔
      [lo, hi] = [crcLow .B s.dec.snap, crcHigh .B s.dec.snap] := by
    simp [trailerMatches, trailerLow]
  rw [feedAll_cons, feedAll_cons, feedAll_nil, hlo, hhi, trailerHigh]
  by_cases heq : [lo, hi] = [crcLow .B s.dec.snap, crcHigh .B s.dec.snap]
  · rw [if_pos heq, if_pos (hmatch.mpr heq)]
    rfl
  · rw [if_neg heq, if_neg (mt hmatch.mp heq)]
    exact fullReset_discard s

/-- The two bytes after the end sequence are checked against its checksum. -/
theorem feedAll_endSequence_trailer {s : State} (h : s.dec.state = .inMsg) (fill lo hi : Byte) :
    feedAll (endSequence s.cfg fill ++ [lo, hi]) s =
      if [lo, hi] = [crcLow .B (crcFold .B s.crcB (endSequence s.cfg fill)),
        crcHigh .B (crcFold .B s.crcB (endSequence s.cfg fill))]
      then fullReset (s.setStore (s.store.commit s.cfg)) else fullReset s := by
  rw [feedAll_append, feedAll_endSequence h]
  exact feedAll_trailer rfl rfl lo hi

/-- Settles O44. -/
theorem wrongTrailerDiscards : Obligations.WrongTrailerDiscards :=
  fun _ fill lo hi h hne => (feedAll_endSequence_trailer h fill lo hi).trans (if_neg hne)

theorem feedAll_cfg (p : List Byte) : ∀ s : State, (feedAll p s).cfg = s.cfg := by
  induction p with
  | nil => exact fun _ => rfl
  | cons b p ih => exact fun s => (ih (feed b s)).trans (sameSlaveSide_feed b s).cfg

/-- Settles O43: the trailer is the checksum of the whole body, which is the snapshot. -/
theorem wholeMessageCommits : Obligations.WholeMessageCommits := by
  intro s m elements fill hm hstate hcrc
  have hcfg : s.cfg = m.cfg := by rw [← hm, feedAll_cfg]
  have hbody : crcOf .B (beginSequence s.cfg ++ elements ++ endSequence s.cfg fill) =
      crcFold .B m.crcB (endSequence m.cfg fill) := by
    rw [crcOf_append, ← hcrc, hcfg]
  rw [messageBytes, List.append_assoc, feedAll_append, hm, trailerOf, hbody, hcfg,
    feedAll_endSequence_trailer hstate, if_pos rfl]

/-! ### An element on the wire -/

/-- In ACCUM the payload is collected and the element completed, whatever its bytes (R223). -/
theorem feedAll_payload (p : List Byte) : ∀ {s : State}, s.dec.state = .accum → p ≠ [] →
    s.dec.rem = p.length → feedAll p s = completeElement s.dec.tag (s.dec.buf ++ p) { s with
      crcB := crcFold .B s.crcB p, dec := { s.dec with rem := 0, buf := s.dec.buf ++ p } } := by
  induction p with
  | nil => exact fun _ hne => absurd rfl hne
  | cons b p ih =>
    intro s h _ hrem
    rw [feedAll_cons, feed_accum b h]
    by_cases hp : p = []
    · subst hp
      rw [accumulate_last (s := feedCrcB b s) hrem]
      rfl
    · have hpos : p.length ≠ 0 := mt List.length_eq_zero_iff.mp hp
      rw [List.length_cons] at hrem
      have hrest : s.dec.rem - 1 = p.length := by omega
      rw [accumulate_more (s := feedCrcB b s) (show 2 ≤ s.dec.rem by omega)]
      refine (ih ?_ hp ?_).trans ?_
      · exact h
      · exact hrest
      · simp only [feedCrcB_dec, List.append_assoc, List.singleton_append]
        rfl

/-- The TL byte of a scalar element of non-zero count (R212). -/
theorem structural_scalar {s : State} {tag : Tag} {n : Nibble} (hn : n ≠ 0)
    (hesc : tlByte tag.code n ≠ s.cfg.escByte) :
    structural (tlByte tag.code n) s = scalarElement tag n s := by
  rw [structural_tlByte hesc]
  cases tag with
  | octet => exact if_neg hn
  | bool | int | uint => rfl

/-- Settles O38: the TL byte starts the accumulation of the payload's length. -/
theorem scalarElementDeliversItsPayload : Obligations.ScalarElementDeliversItsPayload := by
  intro s tag p h hp hlen hbuf hesc
  have hpos : p.length ≠ 0 := mt List.length_eq_zero_iff.mp hp
  have hcount : (BitVec.ofNat 4 (p.length + s.cfg.tlLenBias)).toNat = p.length + s.cfg.tlLenBias := by
    rw [BitVec.toNat_ofNat]
    omega
  have hn : BitVec.ofNat 4 (p.length + s.cfg.tlLenBias) ≠ 0 := by
    intro h0
    have hzero : (0 : Nibble).toNat = 0 := rfl
    rw [h0, hzero] at hcount
    omega
  have hpayload : payloadLen s.cfg (BitVec.ofNat 4 (p.length + s.cfg.tlLenBias)) = p.length := by
    rw [payloadLen, hcount, Nat.add_sub_cancel]
  have hstart : scalarElement tag (BitVec.ofNat 4 (p.length + s.cfg.tlLenBias))
      (feedCrcB (tlByte tag.code (BitVec.ofNat 4 (p.length + s.cfg.tlLenBias))) s) =
      startAccum tag p.length
        (feedCrcB (tlByte tag.code (BitVec.ofNat 4 (p.length + s.cfg.tlLenBias))) s) := by
    rw [scalarElement, feedCrcB_cfg, hpayload, if_neg hpos, if_neg (Nat.not_lt.mpr hbuf)]
  have htl : tlByte tag.code (BitVec.ofNat 4 (p.length + s.cfg.tlLenBias)) ≠ s.cfg.escByte :=
    fun heq => hesc (congrArg some heq)
  rw [elementBytes, feedAll_cons, feed_inMsg _ h,
    structural_scalar (s := feedCrcB _ s) hn htl, hstart]
  exact feedAll_payload p rfl hp rfl

/-! ### Resynchronisation (R307) -/

/-- What decides the decoder's control flow: its state and the counter that state counts with. -/
def Dec.control (d : Dec) : DecState × Nat :=
  match d.state with
  | .seekEsc => (.seekEsc, d.k)
  | .seekType => (.seekType, d.j)
  | .accum => (.accum, d.rem)
  | .trailer => (.trailer, d.t)
  | .inMsg => (.inMsg, 0)
  | .endFill => (.endFill, 0)

/-- The control flow on the bytes of a begin sequence under the default configuration: an escape, or a
begin byte, which at a structural position is an OctetString of one byte. -/
def controlStep (escape : Bool) : DecState × Nat → DecState × Nat
  | (.seekEsc, k) =>
    if escape then if k = 3 then (.seekType, 0) else (.seekEsc, k + 1) else (.seekEsc, 0)
  | (.seekType, j) =>
    if escape then (.seekEsc, 0) else if j = 3 then (.inMsg, 0) else (.seekType, j + 1)
  | (.inMsg, _) => if escape then (.seekEsc, 1) else (.accum, 1)
  | (.accum, rem) => if rem = 1 then (.inMsg, 0) else (.accum, rem - 1)
  | (.endFill, _) => (.trailer, 0)
  | (.trailer, t) => if t = 0 then (.trailer, 1) else (.seekEsc, 0)

/-- The bytes of a begin sequence under the default configuration. -/
def sequenceByte (escape : Bool) : Byte := if escape then 0x1B else 0x01

section ControlByState

variable {d : Dec}

theorem Dec.control_seekEsc (h : d.state = .seekEsc) : d.control = (.seekEsc, d.k) := by
  rw [Dec.control, h]
theorem Dec.control_seekType (h : d.state = .seekType) : d.control = (.seekType, d.j) := by
  rw [Dec.control, h]
theorem Dec.control_accum (h : d.state = .accum) : d.control = (.accum, d.rem) := by
  rw [Dec.control, h]
theorem Dec.control_trailer (h : d.state = .trailer) : d.control = (.trailer, d.t) := by
  rw [Dec.control, h]
theorem Dec.control_inMsg (h : d.state = .inMsg) : d.control = (.inMsg, 0) := by
  rw [Dec.control, h]
theorem Dec.control_endFill (h : d.state = .endFill) : d.control = (.endFill, 0) := by
  rw [Dec.control, h]

theorem Dec.control_fst (d : Dec) : d.control.1 = d.state := by
  unfold Dec.control
  split <;> simp_all

end ControlByState

section Control

variable {s : State}

theorem control_accumulate (b : Byte) (h : s.dec.state = .accum) (hrem : 1 ≤ s.dec.rem) :
    (accumulate b s).dec.control = if s.dec.rem = 1 then (.inMsg, 0) else (.accum, s.dec.rem - 1) := by
  by_cases hlast : s.dec.rem = 1
  · obtain ⟨st, x, hs, -⟩ := completeElement_cases s.dec.tag (s.dec.buf ++ [b])
      { s with dec := { s.dec with buf := s.dec.buf ++ [b], rem := 0 } }
    rw [if_pos hlast, accumulate_last hlast, hs]
    rfl
  · rw [if_neg hlast, accumulate_more (by omega)]
    exact Dec.control_accum h

theorem control_trailerByte (b : Byte) (h : s.dec.state = .trailer) :
    (trailerByte b s).dec.control = if s.dec.t = 0 then (.trailer, 1) else (.seekEsc, 0) := by
  unfold trailerByte trailerHigh
  split
  · exact Dec.control_trailer h
  · split <;> rfl

/-- A begin byte at a structural position of the default configuration starts a one-byte element. -/
theorem structural_begin (hcfg : s.cfg = Cfg.default) :
    structural beginByte s = startAccum .octet 1 s := by
  have hscalar : structural beginByte s = scalarElement .octet 1 s :=
    structural_scalar (tag := .octet) (n := 1) (by decide) (by rw [hcfg]; decide)
  rw [hscalar, scalarElement, hcfg]
  rfl

/-- Where a byte of either kind does the same. -/
theorem control_feed_uniform (escape : Bool) (b : Byte) (h : s.Inv)
    (hstate : s.dec.state = .accum ∨ s.dec.state = .endFill ∨ s.dec.state = .trailer) :
    (feed b s).dec.control = controlStep escape s.dec.control := by
  obtain hstate | hstate | hstate := hstate
  · rw [feed_accum b hstate, Dec.control_accum hstate]
    exact control_accumulate (s := feedCrcB b s) b hstate (h.dec.accum_rem hstate)
  · rw [feed_endFill b hstate, Dec.control_endFill hstate]
    rfl
  · rw [feed_trailer b hstate, Dec.control_trailer hstate]
    exact control_trailerByte b hstate

theorem control_feed_escape (h : s.Inv) :
    (feed s.cfg.escByte s).dec.control = controlStep true s.dec.control := by
  cases hstate : s.dec.state with
  | seekEsc =>
    rw [Dec.control_seekEsc hstate]
    by_cases hk : s.dec.k = 3
    · rw [feed_escape_fourth hstate hk]
      exact (if_pos hk).symm
    · rw [feed_escape_counts hstate hk]
      exact (Dec.control_seekEsc (d := { s.dec with k := s.dec.k + 1 }) hstate).trans (if_neg hk).symm
  | seekType =>
    obtain ⟨-, hbegin, hend⟩ := Cfg.wf_escByte h.cfg_wf
    have hreset : feed s.cfg.escByte s = fullReset s := by
      rw [feed_seekType _ hstate, seekType]
      simp only [hbegin, hend, if_false, decoderReset_eq, fullReset_feedCrcB, ite_self]
    rw [hreset, Dec.control_seekType hstate]
    rfl
  | inMsg =>
    rw [feed_escape_inMsg hstate, Dec.control_inMsg hstate]
    rfl
  | accum => exact control_feed_uniform _ _ h (.inl hstate)
  | endFill => exact control_feed_uniform _ _ h (.inr (.inl hstate))
  | trailer => exact control_feed_uniform _ _ h (.inr (.inr hstate))

theorem control_feed_begin (h : s.Inv) (hcfg : s.cfg = Cfg.default) :
    (feed beginByte s).dec.control = controlStep false s.dec.control := by
  cases hstate : s.dec.state with
  | seekEsc =>
    obtain ⟨-, hbegin, -⟩ := Cfg.wf_escByte h.cfg_wf
    rw [feed_seekEsc _ hstate, seekEsc, if_neg (by exact hbegin.symm), Dec.control_seekEsc hstate]
    rfl
  | seekType =>
    rw [Dec.control_seekType hstate]
    by_cases hj : s.dec.j = 3
    · rw [feed_begin_fourth hstate hj]
      exact (if_pos hj).symm
    · rw [feed_begin_counts hstate hj]
      exact (Dec.control_seekType (d := { s.dec with j := s.dec.j + 1 }) hstate).trans (if_neg hj).symm
  | inMsg =>
    rw [feed_inMsg _ hstate, structural_begin (s := feedCrcB beginByte s) hcfg,
      Dec.control_inMsg hstate]
    rfl
  | accum => exact control_feed_uniform _ _ h (.inl hstate)
  | endFill => exact control_feed_uniform _ _ h (.inr (.inl hstate))
  | trailer => exact control_feed_uniform _ _ h (.inr (.inr hstate))

theorem control_feed (escape : Bool) (h : s.Inv) (hcfg : s.cfg = Cfg.default) :
    (feed (sequenceByte escape) s).dec.control = controlStep escape s.dec.control := by
  cases escape with
  | false => exact control_feed_begin h hcfg
  | true =>
    have hesc : sequenceByte true = s.cfg.escByte := by rw [hcfg]; rfl
    rw [hesc]
    exact control_feed_escape h

end Control

theorem control_feedAll (escapes : List Bool) : ∀ {s : State}, s.Inv → s.cfg = Cfg.default →
    (feedAll (escapes.map sequenceByte) s).dec.control =
      escapes.foldl (fun c e => controlStep e c) s.dec.control := by
  induction escapes with
  | nil => exact fun _ _ => rfl
  | cons e escapes ih =>
    intro s h hcfg
    rw [List.map_cons, feedAll_cons, List.foldl_cons, ← control_feed e h hcfg]
    exact ih (h.feed _) ((sameSlaveSide_feed _ s).cfg.trans hcfg)

/-- Four begin sequences, byte by byte: which bytes are escapes. -/
def fourSequences : List Bool :=
  (List.replicate 4 (List.replicate 4 true ++ List.replicate 4 false)).flatten

theorem fourSequences_bytes : (List.replicate 4 (beginSequence Cfg.default)).flatten =
    fourSequences.map sequenceByte := by decide

/-- The controls a decoder can have under its invariants. -/
def controls : List (DecState × Nat) :=
  (List.range 4).map (.seekEsc, ·) ++ (List.range 4).map (.seekType, ·) ++
    (List.range' 1 15).map (.accum, ·) ++ (List.range 2).map (.trailer, ·) ++
    [(.inMsg, 0), (.endFill, 0)]

theorem Dec.Inv.control_mem {c : Cfg} {d : Dec} (h : d.Inv c) : d.control ∈ controls := by
  cases hstate : d.state with
  | seekEsc =>
    have hk : d.k < 4 := h.k_lt
    simpa [Dec.control_seekEsc hstate, controls] using hk
  | seekType =>
    have hj : d.j < 4 := h.j_lt
    simpa [Dec.control_seekType hstate, controls] using hj
  | accum =>
    have hrem := h.rem_le
    have hpos := h.accum_rem hstate
    have hrange : 1 ≤ d.rem ∧ d.rem < 16 := by omega
    simpa [Dec.control_accum hstate, controls, List.mem_range'_1] using hrange
  | trailer =>
    have ht : d.t < 2 := Nat.lt_succ_of_le h.t_le
    simpa [Dec.control_trailer hstate, controls] using ht
  | inMsg => simp [Dec.control_inMsg hstate, controls]
  | endFill => simp [Dec.control_endFill hstate, controls]

/-- From every control, one of the four sequences is met in a state that follows it to its last byte. -/
theorem controls_synchronise : ∀ c ∈ controls, ∃ m ∈ [7, 15, 23, 31],
    (fourSequences.take m).foldl (fun c e => controlStep e c) c = (.seekType, 3) := by
  decide

/-- Settles O46: the control decides, and it is one of finitely many. -/
theorem beginsWithinThirtyTwoBytes : Obligations.BeginsWithinThirtyTwoBytes := by
  intro s h hcfg
  obtain ⟨m, hm, hcontrol⟩ := controls_synchronise _ h.dec.control_mem
  have hsmall : ∀ m ∈ [7, 15, 23, 31], m < 32 ∧ m % 8 = 7 := by decide
  obtain ⟨hlt, hmod⟩ := hsmall m hm
  refine ⟨m, hlt, hmod, ?_⟩
  rw [hcfg, fourSequences_bytes, ← List.map_take]
  rw [← control_feedAll _ h hcfg] at hcontrol
  generalize feedAll ((fourSequences.take m).map sequenceByte) s = t at hcontrol
  have hstate : t.dec.state = .seekType :=
    (Dec.control_fst t.dec).symm.trans (congrArg Prod.fst hcontrol)
  have hj : t.dec.j = 3 := by
    rw [Dec.control_seekType hstate] at hcontrol
    exact congrArg Prod.snd hcontrol
  refine ⟨hstate, hj, ?_⟩
  rw [feed_begin_fourth hstate hj]
  exact ⟨rfl, rfl⟩

end Sys2Proof.Machine

namespace Sys2Proof.Machine

/-! SUPPORT. What the decoder touches: the live registers only in a verified commit (R233), and nothing that
depends on the Slave's side of the state (R12, R32, R172). -/

/-! ### The live registers -/

theorem completeElement_live (tag : Tag) (p : List Byte) (s : State) :
    (completeElement tag p s).store.live = s.store.live := by
  obtain ⟨st, x, hs, hst⟩ := completeElement_cases tag p s
  rw [hs]
  rcases hst with rfl | rfl | ⟨y, rfl⟩
  · rfl
  · rfl
  · exact Store.presentValue_live _ _

theorem scalarElement_live (tag : Tag) (n : Nibble) (s : State) :
    (scalarElement tag n s).store.live = s.store.live := by
  unfold scalarElement
  split
  · exact completeElement_live ..
  · split <;> rfl

theorem accumulate_live (b : Byte) (s : State) : (accumulate b s).store.live = s.store.live := by
  unfold accumulate
  dsimp only
  split
  · exact completeElement_live ..
  · rfl

theorem pushList_live (n : Nibble) (s : State) : (pushList n s).store.live = s.store.live := by
  unfold pushList
  split <;> rfl

theorem structural_live (b : Byte) (s : State) : (structural b s).store.live = s.store.live := by
  unfold structural
  split
  · rfl
  split
  · rfl
  split
  · split
    · rfl
    · exact pushList_live ..
  split
  · exact scalarElement_live ..
  · rfl

theorem beginByteSeen_live (s : State) : (beginByteSeen s).store.live = s.store.live := by
  unfold beginByteSeen
  dsimp only
  split <;> rfl

theorem seekType_live (b : Byte) (s : State) : (seekType b s).store.live = s.store.live := by
  unfold seekType
  split
  · split
    · exact beginByteSeen_live s
    split
    · rfl
    split <;> rfl
  · split
    · exact beginByteSeen_live s
    · rfl

theorem seekEsc_live (b : Byte) (s : State) : (seekEsc b s).store.live = s.store.live := by
  unfold seekEsc escapeSeen
  split
  · split <;> rfl
  · rfl

/-- The byte is the second trailer byte of a message whose checksum it completes (R211). -/
def CompletesTrailer (b : Byte) (s : State) : Prop :=
  s.dec.state = .trailer ∧ s.dec.t ≠ 0 ∧ trailerMatches b s.dec = true

/-- A telemetry byte keeps the live registers, but for the commit of a verified trailer. -/
theorem feed_live (b : Byte) (s : State) : (feed b s).store.live = s.store.live ∨
    CompletesTrailer b s ∧ (feed b s).store.live = (s.store.commit s.cfg).live := by
  cases hstate : s.dec.state with
  | seekEsc => exact .inl (feed_seekEsc b hstate ▸ seekEsc_live b _)
  | seekType => exact .inl (feed_seekType b hstate ▸ seekType_live b _)
  | inMsg => exact .inl (feed_inMsg b hstate ▸ structural_live b _)
  | accum => exact .inl (feed_accum b hstate ▸ accumulate_live b _)
  | endFill => exact .inl (feed_endFill b hstate ▸ rfl)
  | trailer =>
    rw [feed_trailer b hstate, trailerByte]
    by_cases ht : s.dec.t = 0
    · rw [if_pos ht]
      exact .inl rfl
    · rw [if_neg ht, trailerHigh]
      by_cases hmatch : trailerMatches b s.dec = true
      · rw [if_pos hmatch]
        exact .inr ⟨⟨hstate, ht, hmatch⟩, rfl⟩
      · rw [if_neg hmatch]
        exact .inl rfl

/-- A call keeps the live registers, but for a commit and a byte that completes a trailer. -/
theorem exec_call_live {s t : State} {op : Call} (h : exec op.instr s = .next t) :
    t.store.live = s.store.live ∨ t.store.live = (s.store.commit s.cfg).live ∧
      (op = .storeCommit ∨ ∃ b, op = .decoderFeed b ∧ CompletesTrailer b s) := by
  cases op with
  | storeCommit =>
    cases h
    exact .inr ⟨rfl, .inl rfl⟩
  | decoderFeed b =>
    cases h
    obtain hlive | ⟨htrailer, hlive⟩ := feed_live b s
    · exact .inl hlive
    · exact .inr ⟨hlive, .inr ⟨b, rfl, htrailer⟩⟩
  | respReadInputRegisters =>
    exact .inl (congrArg Store.live (sameDecoderSide_respond (outcomeOf_next.mp h)).store)
  | slaveOnByte => exact .inl (congrArg Store.live (sameDecoderSide_onByte (outcomeOf_next.mp h)).store)
  | timerRx => exact .inl (congrArg Store.live (sameDecoderSide_onByte (outcomeOf_next.mp h)).store)
  | timerTick =>
    cases h
    obtain ⟨-, hstore, -⟩ := keepsDecoder_tick s
    exact .inl (congrArg Store.live hstore)
  | crcReset v | crcFeed v =>
    cases h
    cases v <;> exact .inl rfl
  | storePresentValue v =>
    cases h
    exact .inl (Store.presentValue_live v _)
  | storeReadRegister i =>
    change execStoreReadRegister i s = .next t at h
    unfold execStoreReadRegister at h
    split at h
    · cases h
      exact .inl rfl
    · cases h
  | respExcIllegalFunction | respExcIllegalDataAddress | crcLowByte | crcHighByte | storeReset
  | storePresentCode | storeRegisterCount =>
    cases h
    exact .inl rfl

/-- Settles O45: an event that changes a live register is a commit or completes a verified trailer. -/
theorem liveRegistersChangeOnlyOnVerifiedCommit :
    Obligations.LiveRegistersChangeOnlyOnVerifiedCommit := by
  intro s t hstep hne
  obtain ⟨-, rfl⟩ | ⟨e, rest, hev, hrun⟩ := step_next_cases hstep
  · exact absurd rfl hne
  have hhead : s.events.head? = some e := by rw [hev]; rfl
  rw [hhead]
  have verified {b : Byte} (hlive : t.store.live = (s.store.commit s.cfg).live)
      (htrailer : CompletesTrailer b (s.setEvents rest))
      (he : e = .telemetry b ∨ e = .call (.decoderFeed b)) :
      t.store.live = (s.store.commit s.cfg).live ∧ (some e = some (.call .storeCommit) ∨
        ∃ b : Byte, s.dec.state = .trailer ∧ s.dec.t ≠ 0 ∧
          s.dec.tlo = (s.dec.snap ^^^ 0xFFFF).setWidth 8 ∧
          b = ((s.dec.snap ^^^ 0xFFFF) >>> 8).setWidth 8 ∧
          (some e = some (.telemetry b) ∨ some e = some (.call (.decoderFeed b)))) := by
    obtain ⟨hstate, ht, hmatch⟩ := htrailer
    obtain ⟨hlo, hhi⟩ := trailerMatches_iff.mp hmatch
    exact ⟨hlive, .inr ⟨b, hstate, ht, hlo, hhi,
      he.imp (congrArg some) (congrArg some)⟩⟩
  cases e with
  | telemetry b =>
    cases hrun
    obtain hsame | ⟨htrailer, hlive⟩ := feed_live b (s.setEvents rest)
    · exact absurd hsame hne
    · exact verified hlive htrailer (.inl rfl)
  | fieldbus =>
    exact absurd (congrArg Store.live (sameDecoderSide_onByte (outcomeOf_next.mp hrun)).store) hne
  | frame =>
    exact absurd (congrArg Store.live (sameDecoderSide_onFrame (outcomeOf_next.mp hrun)).store) hne
  | call op =>
    obtain hsame | ⟨hlive, rfl | ⟨b, rfl, htrailer⟩⟩ := exec_call_live hrun
    · exact absurd hsame hne
    · exact ⟨hlive, .inl rfl⟩
    · exact verified hlive htrailer (.inr rfl)

/-! ### The decoder is independent of the Slave's side -/

/-- The decoder's side of `s` (the configuration, the decoder, its checksum, the Store) with the Slave's
side of `o`. -/
def State.withSlaveSide (o s : State) : State :=
  { o with cfg := s.cfg, crcB := s.crcB, store := s.store, dec := s.dec }

section WithSlaveSide

variable {o s : State}

/-- A choice between two results that commute commutes. -/
theorem ite_withSlaveSide {c : Prop} [Decidable c] {x y x' y' : State} (hx : x' = o.withSlaveSide x)
    (hy : y' = o.withSlaveSide y) :
    (if c then x' else y') = o.withSlaveSide (if c then x else y) := by
  rw [apply_ite (State.withSlaveSide o), hx, hy]

theorem beginByteSeen_withSlaveSide :
    beginByteSeen (o.withSlaveSide s) = o.withSlaveSide (beginByteSeen s) :=
  ite_withSlaveSide rfl rfl

theorem trailerByte_withSlaveSide (b : Byte) :
    trailerByte b (o.withSlaveSide s) = o.withSlaveSide (trailerByte b s) :=
  ite_withSlaveSide rfl (ite_withSlaveSide rfl rfl)

theorem seekEsc_withSlaveSide (b : Byte) :
    seekEsc b (o.withSlaveSide s) = o.withSlaveSide (seekEsc b s) :=
  ite_withSlaveSide (ite_withSlaveSide rfl rfl) rfl

theorem seekType_withSlaveSide (b : Byte) :
    seekType b (o.withSlaveSide s) = o.withSlaveSide (seekType b s) :=
  ite_withSlaveSide
    (ite_withSlaveSide beginByteSeen_withSlaveSide
      (ite_withSlaveSide rfl (ite_withSlaveSide rfl rfl)))
    (ite_withSlaveSide beginByteSeen_withSlaveSide rfl)

theorem captureScale_withSlaveSide (p : List Byte) :
    captureScale p (o.withSlaveSide s) = o.withSlaveSide (captureScale p s) := by
  unfold captureScale
  cases scalerValue p <;> rfl

theorem callback_withSlaveSide (tag : Tag) (depth pos : Nat) (p : List Byte) :
    callback tag depth pos p (o.withSlaveSide s) = o.withSlaveSide (callback tag depth pos p s) := by
  by_cases hd : depth = s.cfg.codeDepth
  · subst hd
    cases tag with
    | octet =>
      rw [callback_octet]
      exact (callback_octet pos p (o.withSlaveSide s)).trans (ite_withSlaveSide rfl rfl)
    | int =>
      have hscale : (if pos = s.cfg.scalePos then captureScale p (o.withSlaveSide s)
          else o.withSlaveSide s) =
          o.withSlaveSide (if pos = s.cfg.scalePos then captureScale p s else s) :=
        ite_withSlaveSide (captureScale_withSlaveSide p) rfl
      rw [callback_int]
      exact (callback_int pos p (o.withSlaveSide s)).trans
        (ite_withSlaveSide (congrArg (presentReading p) hscale) hscale)
    | bool => rw [callback_bool, callback_bool]
    | uint => rw [callback_uint, callback_uint]
  · rw [callback_untracked _ _ _ _ hd, callback_untracked _ _ _ _ (by exact hd)]

theorem completeElement_withSlaveSide (tag : Tag) (p : List Byte) :
    completeElement tag p (o.withSlaveSide s) = o.withSlaveSide (completeElement tag p s) := by
  cases hlv : s.dec.lv with
  | nil =>
    rw [completeElement_closed hlv, completeElement_closed (by exact hlv)]
    rfl
  | cons l ls =>
    rw [completeElement_open hlv, completeElement_open (s := o.withSlaveSide s) hlv,
      callback_withSlaveSide]
    rfl

theorem scalarElement_withSlaveSide (tag : Tag) (n : Nibble) :
    scalarElement tag n (o.withSlaveSide s) = o.withSlaveSide (scalarElement tag n s) :=
  ite_withSlaveSide (completeElement_withSlaveSide tag []) (ite_withSlaveSide rfl rfl)

theorem accumulate_withSlaveSide (b : Byte) :
    accumulate b (o.withSlaveSide s) = o.withSlaveSide (accumulate b s) :=
  ite_withSlaveSide (completeElement_withSlaveSide
    (s := s.setDec { s.dec with buf := s.dec.buf ++ [b], rem := s.dec.rem - 1 }) _ _) rfl

theorem structural_withSlaveSide (b : Byte) :
    structural b (o.withSlaveSide s) = o.withSlaveSide (structural b s) := by
  refine ite_withSlaveSide rfl (ite_withSlaveSide rfl (ite_withSlaveSide
    (ite_withSlaveSide rfl (ite_withSlaveSide rfl rfl)) ?_))
  cases elemTag (tlTag b) with
  | none => rfl
  | some tag => exact scalarElement_withSlaveSide tag _

/-- Whatever the Slave's side holds, a telemetry byte does the same and leaves it. -/
theorem feed_withSlaveSide (b : Byte) :
    feed b (o.withSlaveSide s) = o.withSlaveSide (feed b s) := by
  have hfed : feedCrcB b (o.withSlaveSide s) = o.withSlaveSide (feedCrcB b s) := rfl
  cases hstate : s.dec.state with
  | trailer =>
    rw [feed_trailer b hstate, feed_trailer (s := o.withSlaveSide s) b hstate,
      trailerByte_withSlaveSide]
  | seekEsc =>
    rw [feed_seekEsc b hstate, feed_seekEsc (s := o.withSlaveSide s) b hstate, hfed,
      seekEsc_withSlaveSide]
  | seekType =>
    rw [feed_seekType b hstate, feed_seekType (s := o.withSlaveSide s) b hstate, hfed,
      seekType_withSlaveSide]
  | endFill =>
    rw [feed_endFill b hstate, feed_endFill (s := o.withSlaveSide s) b hstate]
    rfl
  | inMsg =>
    rw [feed_inMsg b hstate, feed_inMsg (s := o.withSlaveSide s) b hstate, hfed,
      structural_withSlaveSide]
  | accum =>
    rw [feed_accum b hstate, feed_accum (s := o.withSlaveSide s) b hstate, hfed,
      accumulate_withSlaveSide]

end WithSlaveSide

theorem State.withSlaveSide_feed (b : Byte) (s : State) :
    s.withSlaveSide (feed b s) = feed b s :=
  (feed_withSlaveSide (o := s) (s := s) b).symm

/-- Settles O47: `t` is the decoder's side of `s` with its own Slave's side. -/
theorem decoderIndependentOfSlave : Obligations.DecoderIndependentOfSlave := by
  intro s t b hcfg hcrc hstore hdec
  have ht : t = t.withSlaveSide s := by
    rw [State.withSlaveSide, ← hcfg, ← hcrc, ← hstore, ← hdec]
  have hfeed : feed b t = t.withSlaveSide (feed b s) := by
    rw [← feed_withSlaveSide, ← ht]
  have hkeep {u : State} : { u with
      crcB := (feed b u).crcB, store := (feed b u).store, dec := (feed b u).dec } = feed b u := by
    have hself := State.withSlaveSide_feed b u
    rw [State.withSlaveSide, (sameSlaveSide_feed b u).cfg] at hself
    exact hself
  refine ⟨feed b s, feed b t, rfl, rfl, ?_, ?_, ?_, hkeep.symm, hkeep.symm⟩
  · rw [hfeed]
    rfl
  · rw [hfeed]
    rfl
  · rw [hfeed]
    rfl

end Sys2Proof.Machine

namespace Sys2Proof.Machine

/-! SUPPORT. Arithmetic: the shift register of the CRC is linear (R142, R146), an Integer payload is its
two's-complement number (R107), and `toScale` is an exact product or a rounded quotient (R229). -/

/-! ### The CRC operations -/

theorem crcShifts_eq_iterate (poly : Word16) (n : Nat) (x : Word16) :
    crcShifts poly n x = (crcShift poly)^[n] x := by
  induction n generalizing x with
  | zero => rfl
  | succ n ih => exact ih (crcShift poly x)

/-- `feed` as eight iterations (R142). -/
theorem crcStep_eq_iterate (v : CrcVariant) (x : Word16) (b : Byte) :
    crcStep v x b = (crcShift v.cfg.poly)^[8] (x ^^^ b.setWidth 16) :=
  crcShifts_eq_iterate ..

theorem crcLow_A (w : Word16) : crcLow .A w = w.setWidth 8 :=
  (loByte_eq_setWidth _).trans (congrArg _ BitVec.xor_zero)

theorem crcHigh_A (w : Word16) : crcHigh .A w = (w >>> 8).setWidth 8 :=
  (hiByte_eq_setWidth _).trans (congrArg (fun x : Word16 => (x >>> 8).setWidth 8) BitVec.xor_zero)

/-- Settles O18. -/
theorem crcOperations : Obligations.CrcOperations := by
  intro s b
  have feed (v : CrcVariant) : exec (.crcFeed v b) s = .next (s.setCrc v (crcStep v (s.crc v) b)) := rfl
  have low (v : CrcVariant) :
      exec (.crcLowByte v) s = .next (s.setRet (some (.u8 (crcLow v (s.crc v))))) := rfl
  have high (v : CrcVariant) :
      exec (.crcHighByte v) s = .next (s.setRet (some (.u8 (crcHigh v (s.crc v))))) := rfl
  refine ⟨⟨rfl, rfl⟩, ⟨?_, ?_⟩, ⟨?_, ?_⟩, ⟨?_, ?_⟩⟩
  · rw [feed, crcStep_eq_iterate]
    rfl
  · rw [feed, crcStep_eq_iterate]
    rfl
  · rw [low, crcLow_A]
    rfl
  · rw [low, crcLow_B]
    rfl
  · rw [high, crcHigh_A]
    rfl
  · rw [high, crcHigh_B]
    rfl

/-! ### Linearity and the residues -/

theorem crcShift_xor (poly x y : Word16) :
    crcShift poly (x ^^^ y) = crcShift poly x ^^^ crcShift poly y := by
  unfold crcShift
  rw [BitVec.getLsbD_xor, BitVec.ushiftRight_xor_distrib]
  cases x.getLsbD 0 <;> cases y.getLsbD 0 <;>
    simp only [Bool.xor_false, Bool.xor_true, Bool.not_true, Bool.not_false, if_true,
      Bool.false_eq_true, if_false]
  · ac_rfl
  · ac_rfl
  · calc (x >>> 1) ^^^ (y >>> 1)
        = ((x >>> 1) ^^^ (y >>> 1)) ^^^ (poly ^^^ poly) := by rw [BitVec.xor_self, BitVec.xor_zero]
      _ = ((x >>> 1) ^^^ poly) ^^^ ((y >>> 1) ^^^ poly) := by ac_rfl

theorem crcShifts_xor (poly : Word16) (n : Nat) (x y : Word16) :
    crcShifts poly n (x ^^^ y) = crcShifts poly n x ^^^ crcShifts poly n y := by
  induction n generalizing x y with
  | zero => rfl
  | succ n ih => rw [crcShifts, crcShift_xor, ih]; rfl

/-- While the low bits are clear the polynomial is not applied. -/
theorem crcShifts_of_low_clear {poly : Word16} {n : Nat} {x : Word16}
    (h : ∀ i < n, x.getLsbD i = false) : crcShifts poly n x = x >>> n := by
  induction n generalizing x with
  | zero => exact (BitVec.ushiftRight_zero x).symm
  | succ n ih =>
    have hshift : crcShift poly x = x >>> 1 := if_neg (by rw [h 0 n.succ_pos]; exact Bool.false_ne_true)
    rw [crcShifts, hshift, ih, Nat.add_comm, BitVec.shiftRight_add]
    intro i hi
    rw [BitVec.getLsbD_ushiftRight]
    exact h _ (by omega)

/-- A byte has nothing to do with the high byte of a word. -/
theorem xor_byte_ushiftRight (w : Word16) (b : Byte) : (w ^^^ b.setWidth 16) >>> 8 = w >>> 8 := by
  ext i hi
  simp

/-- Eight shifts of a word: its low byte runs through the register, its high byte comes down. -/
theorem crcShifts_eight (poly w : Word16) :
    crcShifts poly 8 w = (w >>> 8) ^^^ crcShifts poly 8 ((loByte w).setWidth 16) := by
  have hclear : ∀ i < 8, (w ^^^ (loByte w).setWidth 16).getLsbD i = false := by
    intro i hi
    rw [loByte_eq_setWidth]
    simp [hi, show i < 16 by omega]
  calc crcShifts poly 8 w
      = crcShifts poly 8 ((w ^^^ (loByte w).setWidth 16) ^^^ (loByte w).setWidth 16) := by
        rw [BitVec.xor_assoc, BitVec.xor_self, BitVec.xor_zero]
    _ = ((w ^^^ (loByte w).setWidth 16) >>> 8) ^^^ crcShifts poly 8 ((loByte w).setWidth 16) := by
        rw [crcShifts_xor, crcShifts_of_low_clear hclear]
    _ = (w >>> 8) ^^^ crcShifts poly 8 ((loByte w).setWidth 16) := by
        rw [xor_byte_ushiftRight]

theorem loByte_xor (x y : Word16) : loByte (x ^^^ y) = loByte x ^^^ loByte y :=
  BitVec.extractLsb'_xor

theorem loByte_loByte (w : Word16) : loByte ((loByte w).setWidth 16) = loByte w := by
  rw [loByte_eq_setWidth ((loByte w).setWidth 16), BitVec.setWidth_setWidth_of_le _ (by decide),
    BitVec.setWidth_eq]

theorem setWidth_hiByte (w : Word16) : (hiByte w).setWidth 16 = w >>> 8 := by
  rw [hiByte_eq_setWidth]
  have hsmall : w.toNat / 256 < 256 := Nat.div_lt_of_lt_mul w.isLt
  apply BitVec.eq_of_toNat_eq
  rw [BitVec.toNat_setWidth, BitVec.toNat_setWidth, BitVec.toNat_ushiftRight,
    Nat.shiftRight_eq_div_pow]
  omega

/-- The register after its own low byte: the polynomial sees only the masked difference (R143). -/
theorem crcStep_crcLow (v : CrcVariant) (x : Word16) : crcStep v x (crcLow v x) =
    (x >>> 8) ^^^ crcShifts v.cfg.poly 8 ((loByte v.cfg.xorout).setWidth 16) := by
  have hbyte : loByte (x ^^^ (crcLow v x).setWidth 16) = loByte v.cfg.xorout := by
    rw [crcLow, loByte_xor, loByte_loByte, crcOut, loByte_xor, ← BitVec.xor_assoc, BitVec.xor_self,
      BitVec.zero_xor]
  rw [crcStep, crcShifts_eight, hbyte, xor_byte_ushiftRight]

/-- The residue of a variant does not depend on the register (R146). -/
theorem crcFold_ownChecksum (v : CrcVariant) (x : Word16) :
    crcFold v x [crcLow v x, crcHigh v x] = crcShifts v.cfg.poly 8
      (crcShifts v.cfg.poly 8 ((loByte v.cfg.xorout).setWidth 16) ^^^ (v.cfg.xorout >>> 8)) := by
  rw [crcFold_cons, crcFold_cons, crcFold_nil, crcStep_crcLow, crcStep, crcHigh, setWidth_hiByte,
    crcOut, BitVec.ushiftRight_xor_distrib]
  congr 1
  calc _ = ((x >>> 8) ^^^ (x >>> 8)) ^^^
        (crcShifts v.cfg.poly 8 ((loByte v.cfg.xorout).setWidth 16) ^^^ (v.cfg.xorout >>> 8)) := by
        ac_rfl
    _ = _ := by rw [BitVec.xor_self, BitVec.zero_xor]

/-- Settles O19: the residue of each variant is one closed evaluation. -/
theorem checksumResidues : Obligations.ChecksumResidues := by
  intro p
  rw [crcOf_append, crcOf_append, crcFold_ownChecksum, crcFold_ownChecksum]
  simp [crcShifts, crcShift, CrcVariant.cfg, loByte]

/-! ### The value of an Integer payload -/

theorem beNat_foldl (p : List Byte) (v : Nat) :
    p.foldl (fun v b => v * 256 + b.toNat) v = v * 256 ^ p.length + beNat p := by
  unfold beNat
  induction p generalizing v with
  | nil => simp
  | cons b p ih =>
    rw [List.foldl_cons, List.foldl_cons, ih, ih (0 * 256 + b.toNat), List.length_cons]
    ring

theorem beNat_cons (b : Byte) (p : List Byte) :
    beNat (b :: p) = b.toNat * 256 ^ p.length + beNat p := by
  rw [beNat, List.foldl_cons, beNat_foldl, Nat.zero_mul, Nat.zero_add]

theorem beNat_append (p q : List Byte) : beNat (p ++ q) = beNat p * 256 ^ q.length + beNat q := by
  rw [beNat, List.foldl_append, beNat_foldl]
  rfl

theorem beNat_lt (p : List Byte) : beNat p < 256 ^ p.length := by
  induction p with
  | nil => exact Nat.one_pos
  | cons b p ih =>
    have hb := b.isLt
    rw [beNat_cons, List.length_cons, Nat.pow_succ']
    calc b.toNat * 256 ^ p.length + beNat p
        < b.toNat * 256 ^ p.length + 256 ^ p.length := Nat.add_lt_add_left ih _
      _ = (b.toNat + 1) * 256 ^ p.length := (Nat.succ_mul _ _).symm
      _ ≤ 256 * 256 ^ p.length := Nat.mul_le_mul_right _ hb

theorem two_pow_eight_mul (n : Nat) : 2 ^ (8 * n) = 256 ^ n := by
  rw [Nat.pow_mul]

/-- The sign of a payload is its first byte's (R107). -/
theorem signedOf_cons (b : Byte) (p : List Byte) :
    signedOf (8 * (b :: p).length) (beNat (b :: p)) = b.toInt * 256 ^ p.length + (beNat p : Int) := by
  have hrest := beNat_lt p
  have hpow : (2 : Int) ^ (8 * (p.length + 1)) = 256 * ((256 ^ p.length : Nat) : Int) := by
    rw [pow_mul]
    norm_num [pow_succ']
  have hcast : (256 : Int) ^ p.length = ((256 ^ p.length : Nat) : Int) := by norm_num
  rw [signedOf, beNat_cons, List.length_cons, hpow, two_pow_eight_mul, Nat.pow_succ', hcast,
    BitVec.toInt_eq_toNat_cond]
  generalize 256 ^ p.length = m at hrest
  by_cases hb : 2 * b.toNat < 2 ^ 8
  · have hle : b.toNat * m ≤ 127 * m := Nat.mul_le_mul_right _ (by omega)
    rw [if_pos hb, if_pos (by omega)]
    push_cast
    ring
  · have hle : 128 * m ≤ b.toNat * m := Nat.mul_le_mul_right _ (by omega)
    rw [if_neg hb, if_neg (by omega)]
    push_cast
    ring

/-- A payload of at most eight bytes fits 64 bits. -/
theorem intValue_cons_toInt (b : Byte) {p : List Byte} (h : p.length ≤ 7) :
    (intValue (b :: p)).toInt = b.toInt * 256 ^ p.length + (beNat p : Int) := by
  rw [intValue, signedOf_cons, BitVec.toInt_ofInt]
  have hrest : (beNat p : Int) < 256 ^ p.length := by exact_mod_cast beNat_lt p
  have hpow : (256 : Int) ^ p.length ≤ 256 ^ 7 := pow_le_pow_right₀ (by norm_num) h
  have hpos : (0 : Int) < 256 ^ p.length := by positivity
  have hlow : -128 ≤ b.toInt := by have := BitVec.le_toInt b; simpa using this
  have hhigh : b.toInt ≤ 127 := by have := BitVec.toInt_lt (x := b); omega
  generalize (256 : Int) ^ p.length = m at *
  have hbelow : -128 * m ≤ b.toInt * m := mul_le_mul_of_nonneg_right hlow hpos.le
  have habove : b.toInt * m ≤ 127 * m := mul_le_mul_of_nonneg_right hhigh hpos.le
  apply Int.bmod_eq_of_le <;> push_cast <;> omega

/-- Of 64 bits or more, only the number modulo 2^64 is left. -/
theorem ofInt_signedOf {bits : Nat} (h : 64 ≤ bits) (n : Nat) :
    BitVec.ofInt 64 (signedOf bits n) = BitVec.ofNat 64 n := by
  obtain ⟨k, rfl⟩ := Nat.exists_eq_add_of_le h
  unfold signedOf
  split
  · exact BitVec.ofInt_natCast 64 n
  · apply BitVec.eq_of_toNat_eq
    rw [BitVec.toNat_ofInt, BitVec.toNat_ofNat, pow_add]
    generalize (2 : Int) ^ k = m
    omega

/-- Settles O39. -/
theorem integerPayloadValue : Obligations.IntegerPayloadValue := by
  refine ⟨rfl, fun b p h => intValue_cons_toInt b h, fun p q hq => ?_⟩
  rw [intValue, intValue, ofInt_signedOf (by rw [List.length_append]; omega),
    ofInt_signedOf (by omega), beNat_append, hq]
  apply BitVec.eq_of_toNat_eq
  simp only [BitVec.toNat_ofNat]
  omega

/-! ### The scaling of a reading -/

theorem extractLsb'_ofInt (x : Int) :
    (BitVec.ofInt 64 x).extractLsb' 0 32 = BitVec.ofInt 32 x := by
  rw [← BitVec.setWidth_eq_extractLsb' (by decide)]
  apply BitVec.eq_of_toNat_eq
  simp only [BitVec.toNat_setWidth, BitVec.toNat_ofInt]
  omega

/-- Only the number before the truncation matters, modulo 2^32. -/
theorem toScale_eq (v : I64) (scaler : BitVec 8) : toScale v scaler =
    (BitVec.ofInt 32 (scaleNumber v.toInt scaler.toInt)).signExtend 64 := by
  rw [toScale, extractLsb'_ofInt]

theorem ofInt_scaleUp (n : Nat) (v : Int) :
    BitVec.ofInt 64 (scaleUp n v) = BitVec.ofInt 64 (v * 10 ^ n) := by
  induction n generalizing v with
  | zero => rw [scaleUp, pow_zero, mul_one]
  | succ n ih =>
    rw [scaleUp, ih, BitVec.ofInt_mul, wrap64, BitVec.ofInt_toInt, ← BitVec.ofInt_mul, pow_succ',
      mul_assoc]

theorem roundLast_zero (v : Int) : roundLast v 0 = v := by
  simp [roundLast]

theorem scaleNumber_natCast (v : Int) (n : Nat) : scaleNumber v n = scaleUp n v := by
  have hdown : (-(n : Int)).toNat = 0 := Int.toNat_of_nonpos (by omega)
  rw [scaleNumber, Int.toNat_natCast, hdown]
  exact roundLast_zero _

/-- Settles O41: the multiplications wrap at 64 bits, which the truncation to 32 does not see. -/
theorem toScaleMultiplies : Obligations.ToScaleMultiplies := by
  intro v scaler n hn
  rw [toScale_eq, hn, scaleNumber_natCast, ← extractLsb'_ofInt, ofInt_scaleUp, extractLsb'_ofInt]

theorem scaleNumber_neg_natCast (v : Int) (n : Nat) : scaleNumber v (-(n : Int)) =
    roundLast (scaleDown n v 0).1 (scaleDown n v 0).2 := by
  have hup : (-(n : Int)).toNat = 0 := Int.toNat_of_nonpos (by omega)
  rw [scaleNumber, hup, Int.neg_neg, Int.toNat_natCast]
  rfl

/-- The divisions of a natural number: the quotient, and the last digit cut off. -/
theorem scaleDown_natCast (n v : Nat) (r : Int) : scaleDown (n + 1) (v : Int) r =
    (((v / 10 ^ (n + 1) : Nat) : Int), ((v / 10 ^ n % 10 : Nat) : Int)) := by
  induction n generalizing v r with
  | zero =>
    rw [pow_zero, Nat.div_one]
    rfl
  | succ n ih =>
    have hdiv : (v : Int).tdiv 10 = ((v / 10 : Nat) : Int) := rfl
    rw [scaleDown, hdiv, ih, Nat.div_div_eq_div_mul, Nat.div_div_eq_div_mul, ← Nat.pow_succ',
      ← Nat.pow_succ']

theorem scaleDown_neg (n : Nat) (v r : Int) :
    scaleDown n (-v) (-r) = (-(scaleDown n v r).1, -(scaleDown n v r).2) := by
  induction n generalizing v r with
  | zero => rfl
  | succ n ih => rw [scaleDown, scaleDown, Int.neg_tdiv, Int.neg_tmod, ih]

theorem roundLast_neg (v r : Int) : roundLast (-v) (-r) = -roundLast v r := by
  unfold roundLast
  split_ifs <;> omega

/-- Rounding by the last digit is rounding the quotient. -/
theorem roundLast_natCast (q : Nat) :
    roundLast ((q / 10 : Nat) : Int) ((q % 10 : Nat) : Int) = (((q + 5) / 10 : Nat) : Int) := by
  unfold roundLast
  split_ifs <;> omega

theorem div_round (v n : Nat) :
    (v / 10 ^ n + 5) / 10 = (2 * v + 10 ^ (n + 1)) / (2 * 10 ^ (n + 1)) := by
  have hpos : 0 < 10 ^ n := Nat.pow_pos (by decide)
  have hdouble : 2 * v + 10 ^ (n + 1) = 2 * (v + 5 * 10 ^ n) := by ring
  rw [hdouble, Nat.mul_div_mul_left _ _ (by decide), Nat.pow_succ, ← Nat.div_div_eq_div_mul,
    Nat.add_mul_div_right _ _ hpos]

/-- For a natural number the loop rounds half up. -/
theorem round_scaleDown_natCast (n v : Nat) :
    roundLast (scaleDown (n + 1) (v : Int) 0).1 (scaleDown (n + 1) (v : Int) 0).2 =
      roundedQuotient v (10 ^ (n + 1)) := by
  rw [scaleDown_natCast, pow_succ, ← Nat.div_div_eq_div_mul, roundLast_natCast, div_round,
    roundedQuotient, if_pos (Int.natCast_nonneg v)]
  push_cast
  rfl

theorem roundedQuotient_neg (v : Int) {m : Nat} (hm : 0 < m) :
    roundedQuotient (-v) m = -roundedQuotient v m := by
  unfold roundedQuotient
  obtain hv | rfl | hv := lt_trichotomy v 0
  · rw [if_pos (by omega), if_neg (by omega), Int.neg_neg]
  · have hhalf : (m : Int) / (2 * m) = 0 := Int.ediv_eq_zero_of_lt (by omega) (by omega)
    simp [hhalf]
  · rw [if_neg (by omega), if_pos (by omega), Int.neg_neg]

theorem round_scaleDown (n : Nat) (v : Int) :
    roundLast (scaleDown (n + 1) v 0).1 (scaleDown (n + 1) v 0).2 =
      roundedQuotient v (10 ^ (n + 1)) := by
  obtain ⟨w, rfl | rfl⟩ := Int.eq_nat_or_neg v
  · exact round_scaleDown_natCast n w
  · have hneg := scaleDown_neg (n + 1) (w : Int) 0
    rw [Int.neg_zero] at hneg
    rw [hneg, roundLast_neg, round_scaleDown_natCast,
      roundedQuotient_neg _ (Nat.pow_pos (by decide))]

/-- Settles O40. -/
theorem toScaleRoundsExactQuotient : Obligations.ToScaleRoundsExactQuotient := by
  intro v scaler n hn hpos
  obtain ⟨m, rfl⟩ := Nat.exists_eq_succ_of_ne_zero (Nat.one_le_iff_ne_zero.mp hpos)
  rw [toScale_eq, hn, scaleNumber_neg_natCast, round_scaleDown]

end Sys2Proof.Machine

namespace Sys2Proof.Machine

/-! SUPPORT. The Register Store from the outside: which code a string names (R162, R163), what the register
file reads (R169 to R171), and a value's way from its presentation to its registers (R166). -/

/-! ### The code a string names -/

/-- A string names the lowest entry of the code table that it spells before its suffix. -/
theorem matchCode_eq_some_iff {c : Cfg} {p : List Byte} {k : Nat} : matchCode c p = some k ↔
    p.length = 6 ∧ p[5]? = some 0xFF ∧ c.codeTable[k]? = some (p.take 5) ∧
      ∀ m, m < k → c.codeTable[m]? ≠ some (p.take 5) := by
  have hfind : c.codeTable.findIdx? (fun e => e == p.take 5) = some k ↔
      c.codeTable[k]? = some (p.take 5) ∧ ∀ m, m < k → c.codeTable[m]? ≠ some (p.take 5) := by
    rw [List.findIdx?_eq_some_iff_getElem, List.getElem?_eq_some_iff]
    constructor
    · rintro ⟨hk, heq, hlow⟩
      refine ⟨⟨hk, beq_iff_eq.mp heq⟩, fun m hm => ?_⟩
      rw [List.getElem?_eq_getElem (hm.trans hk)]
      exact fun heq => hlow m hm (beq_iff_eq.mpr (Option.some.inj heq))
    · rintro ⟨⟨hk, heq⟩, hlow⟩
      refine ⟨hk, beq_iff_eq.mpr heq, fun m hm heq => hlow m hm ?_⟩
      rw [List.getElem?_eq_getElem (hm.trans hk), beq_iff_eq.mp heq]
  have hguard : p.length = codeLen + 1 ∧ p.getD codeLen 0 = codeSuffix ↔
      p.length = 6 ∧ p[5]? = some 0xFF := by
    refine and_congr_right fun hlen => ?_
    have h5 : 5 < p.length := by rw [hlen]; decide
    rw [codeLen, codeSuffix, List.getD_eq_getElem?_getD, List.getElem?_eq_getElem h5,
      Option.getD_some, Option.some.injEq]
  unfold matchCode
  by_cases h : p.length = codeLen + 1 ∧ p.getD codeLen 0 = codeSuffix
  · obtain ⟨hlen, hsuffix⟩ := hguard.mp h
    rw [if_pos h]
    exact hfind.trans ⟨fun hk => ⟨hlen, hsuffix, hk⟩, fun ⟨_, _, hk⟩ => hk⟩
  · rw [if_neg h]
    exact ⟨nofun, fun ⟨hlen, hsuffix, _⟩ => absurd (hguard.mpr ⟨hlen, hsuffix⟩) h⟩

@[simp] theorem exec_storePresentCode (p : List Byte) (s : State) :
    exec (.storePresentCode p) s = .next (s.setStore (s.store.presentCode s.cfg p)) := rfl

/-- Settles O21. -/
theorem presentCodeDetects : Obligations.PresentCodeDetects :=
  fun s p => ⟨matchCode s.cfg p, exec_storePresentCode p s, fun _ => matchCode_eq_some_iff⟩

/-! ### The register file -/

theorem exec_storeReadRegister_ok {s : State} {i : Nat} {w : Word16}
    (h : readRegister s.cfg s.store i = .ok w) :
    exec (.storeReadRegister i) s = .next (s.setRet (some (.u16 w))) := by
  show execStoreReadRegister i s = _
  rw [execStoreReadRegister, h]

theorem exec_storeReadRegister_error {s : State} {i : Nat} {f : Fault}
    (h : readRegister s.cfg s.store i = .error f) : exec (.storeReadRegister i) s = .fault f := by
  show execStoreReadRegister i s = _
  rw [execStoreReadRegister, h]

/-- Settles O24: the version words, the live file behind them, and nothing past it. -/
theorem registerFileReads : Obligations.RegisterFileReads := by
  intro s h
  have hcount : 2 + 2 * s.cfg.nCodes ≤ 126 := Cfg.wf_nReg_le h.cfg_wf
  refine ⟨rfl, by omega, exec_storeReadRegister_ok (readRegister_zero _ _),
    exec_storeReadRegister_ok (readRegister_one _ _), fun i hlow hi => ?_,
    fun i hi => exec_storeReadRegister_error (readRegister_out_of_range hi)⟩
  obtain ⟨j, rfl⟩ := Nat.exists_eq_add_of_le' hlow
  have hlive := h.store.live_length
  have hj : j < s.store.live.length := by omega
  exact ⟨s.store.live[j], List.getElem?_eq_getElem hj,
    exec_storeReadRegister_ok (readRegister_live hi (List.getElem?_eq_getElem hj))⟩

/-! ### From presentation to register -/

/-- A read depends on the Store by its live words only. -/
theorem readRegister_congr {c : Cfg} {st st' : Store} (h : st'.live = st.live) (i : Nat) :
    readRegister c st' i = readRegister c st i := by
  unfold readRegister
  rw [h]

/-- A code of the table, presented with its suffix, is detected at its lowest index. -/
theorem matchCode_append_suffix {c : Cfg} {code : List Byte} {k : Nat} (hlen : code.length = 5)
    (hk : c.codeTable[k]? = some code) (hlow : ∀ m, m < k → c.codeTable[m]? ≠ some code) :
    matchCode c (code ++ [0xFF]) = some k := by
  have htake : (code ++ [0xFF]).take 5 = code := List.take_left' hlen
  have hsuffix : (code ++ [0xFF])[5]? = some 0xFF := by
    rw [← hlen, List.getElem?_concat_length]
  rw [matchCode_eq_some_iff, htake]
  exact ⟨by rw [List.length_append, hlen]; rfl, hsuffix, hk, hlow⟩

theorem Cfg.wf_code_length {c : Cfg} (h : c.wf = true) {code : List Byte} (hcode : code ∈ c.codeTable) :
    code.length = 5 := by
  simp only [Cfg.wf, decide_eq_true_eq] at h
  obtain ⟨-, -, -, -, -, -, -, -, -, -, -, -, -, hlen, -⟩ := h
  exact hlen code hcode

/-- A commit after a staged value makes both of its words readable. -/
theorem readRegister_commit_presentValue {c : Cfg} {st : Store} {k : Nat} (v : I64) (h : st.Inv c)
    (hdet : st.det = some k) :
    readRegister c ((st.presentValue v).commit c) (2 + 2 * k) = .ok ((v >>> 16).setWidth 16) ∧
      readRegister c ((st.presentValue v).commit c) (3 + 2 * k) = .ok (v.setWidth 16) := by
  have hk : k < c.nCodes := h.det_lt k hdet
  have hstaged := h.staged_length
  have hinv := h.presentValue v
  have hflag := Store.presentValue_sset_self v hdet (by rw [h.sset_length]; exact hk)
  have hhigh : ((st.presentValue v).commit c).live[2 * k]? = some ((v >>> 16).setWidth 16) :=
    (Store.commit_live_of_staged hinv (by omega) (by omega) hflag).trans
      (Store.presentValue_staged_high v hdet (by omega))
  have hlow : ((st.presentValue v).commit c).live[2 * k + 1]? = some (v.setWidth 16) :=
    (Store.commit_live_of_staged hinv (by omega) (by omega) hflag).trans
      (Store.presentValue_staged_low v hdet (by omega))
  rw [show 2 + 2 * k = 2 * k + 2 by omega, show 3 + 2 * k = 2 * k + 1 + 2 by omega]
  exact ⟨readRegister_live (by unfold Cfg.nReg; omega) hhigh,
    readRegister_live (by unfold Cfg.nReg; omega) hlow⟩

/-- Settles O25: the code is detected, the value staged behind it, and the commit promotes the pair. -/
theorem presentedValueReadableAfterCommit : Obligations.PresentedValueReadableAfterCommit := by
  intro s code k v h hk hlow
  have hlen := Cfg.wf_code_length h.cfg_wf (List.mem_of_getElem? hk)
  have hdet : (s.store.presentCode s.cfg (code ++ [0xFF])).det = some k :=
    matchCode_append_suffix hlen hk hlow
  refine ⟨_, _, _, exec_storePresentCode _ s, exec_storePresentValue v _, exec_storeCommit _,
    readRegister_congr (Store.presentValue_live v _), ?_⟩
  exact readRegister_commit_presentValue v (h.store.presentCode (code ++ [0xFF])) hdet

end Sys2Proof.Machine
